-- ==== Sys2Proof/Word.lean ====
section
/-! DEFINITION. The word types of the device: 64-bit register and memory words, bytes, and a word with its poison
bit (R26). Every multi-byte value is little-endian (R7); the byte-order helpers are in Machine/Bits.lean. -/

namespace Sys2Proof

/-- A register or memory word (R26: poison and ECC are kept per 64-bit word). -/
abbrev Word := BitVec 64

/-- One byte of device memory. -/
abbrev Byte := BitVec 8

/-- A 64-bit value with its poison bit (R26). -/
structure PWord where
  v : Word
  p : Bool
deriving DecidableEq, Repr

/-- A clean (unpoisoned) word. -/
def PWord.clean (v : Word) : PWord := ⟨v, false⟩

end Sys2Proof
end

