-- ==== Sys2Proof/Syntax.lean ====
section
/-! DEFINITION. The commands the block takes from outside: one constructor of `Instr` per row of
spec/opcode_table.json, in the table's order, with the row's operands. A unit number is the spec's own
identifier (R13, Table 00.10); which range an operand has to lie in is said in WellFormed.lean. Operands named
`flt`, `a1`, `ok`, ... carry what the outside world or an undescribed checker presents at that event (a cell
read failing its ECC check, a regulator's report, a peer's answer): an input, not a state of the block. -/

namespace Sys2Proof

/-- The world a Rime processor runs in (R328, R331): normal, secure, or inside an enclave. -/
inductive World where
  | normal
  | secure
  | enclave (n : Nat)
deriving DecidableEq, Repr

/-- A mover channel (Table 07.1). -/
inductive ChanId where
  | core (n ch : Nat)
  | cluster (c ch : Nat)
  | hub (ch : Nat)
deriving DecidableEq, Repr

/-- Who makes a request inside the device (Table 12.3). -/
inductive Requester where
  | engine (core : Nat)
  | chan (ch : ChanId) (sec : Bool)
  | rime (p : Nat) (w : World)
  | serac
  | firn
  | cornice
  | stream
  | conduit
  | host (fn : Nat)
  | debug
deriving DecidableEq, Repr

/-- A Drift label: class 0-7 and instance 0-15, 16 physical function, 31 none (R205). -/
structure Label where
  cls : Nat
  inst : Nat
deriving DecidableEq, Repr

/-- The five levels of R14. -/
inductive Level where
  | engine | core | cluster | die | package
deriving DecidableEq, Repr

/-- An error class (Table 01.5). -/
inductive ErrClass where
  | ce | de | uc | fe
deriving DecidableEq, Repr

/-- The front end and the five engines of a core (R22, R57). -/
inductive EUnit where
  | front | mxe | vxe | wne | ate | cdm
deriving DecidableEq, Repr

/-- A core or cluster semaphore (R55). -/
inductive SemId where
  | core (n i : Nat)
  | cluster (c i : Nat)
deriving DecidableEq, Repr

/-- How one read attempt of a stored word ends at its ECC check (Table 06.7): clean, corrected at a position
(Table 06.10 POS), or uncorrectable, with the pseudo-channels the decoder locates in Strong mode (R183). -/
inductive Attempt where
  | clean
  | corrected (pos : Nat)
  | uncorrectable (located : List Nat)
deriving DecidableEq, Repr

/-- A parity or instruction-store fault met at a dispatch (Table 02.9). -/
inductive DispFault where
  | none
  | regParity
  | istore
  | semParity (core_ : Bool)
deriving DecidableEq, Repr

/-- A fault met at an engine's issue (Table 02.9): SOURCE 0x01-0x03, UC or FE. -/
inductive EngFault where
  | none
  | fault (src : Nat) (fatal : Bool)
deriving DecidableEq, Repr

/-- A log block (Table 06.9). -/
inductive LogId where
  | dram (stack : Nat)
  | coreStore (n : Nat)
  | instrStore (n : Nat)
  | clusterStore (c : Nat)
deriving DecidableEq, Repr

/-- A corrected, transient or permanent record of the corrected-error log (R181). -/
structure MlogRec where
  addr : Nat
  pos : Nat
  kind : Nat
deriving DecidableEq, Repr

/-- The ring pair and tag a submission entry came from (R214, Table 08.5). -/
structure Ent where
  fn : Nat
  prio : Nat
  tag : BitVec 32
deriving DecidableEq, Repr

/-- The instance and tag of a mailbox request (Table 11.4). -/
structure Mbx where
  inst : Nat
  tag : BitVec 32
deriving DecidableEq, Repr

/-- A 256-byte Baseth flit (Table 10.2); `crcOk` says whether its CRC-32 checks. -/
structure Flit where
  lseq : Nat
  ackSeq : Nat
  ackValid : Bool
  nak : Bool
  vc : Nat
  kind : Nat
  dst : Nat
  src : Nat
  conduit : Nat
  epoch : Bool
  detour : Bool
  poison : Bool
  counter : Word
  payload : List Word
  pmask : BitVec 29
  crcOk : Bool
deriving DecidableEq, Repr

/-- One message of a conduit as the receiver holds it (R301): its header, its bytes as received, its tag and the
poisoned words of PMASK (R304). -/
structure CndMsg where
  offset : Nat
  len : Nat
  last : Bool
  slot : Nat
  counter : Word
  cipher : List Word
  tag : BitVec 128
  poisoned : List Nat
deriving DecidableEq, Repr

/-- One link of the fabric in a link map (R296): a device ID, its port, up or not, working lanes. -/
structure LinkRec where
  dev : Nat
  port : Nat
  up : Bool
  lanes : Nat
deriving DecidableEq, Repr

/-- What a fabric manager floods about its device (R288). -/
structure FmPeer where
  uid : Word
  eligible : Bool
  tabden : Bool
deriving DecidableEq, Repr

/-- An Ethernet frame as it meets the switch (R368, R369). -/
structure EthFrame where
  dst : BitVec 48
  src : BitVec 48
  vlan : Nat
  pcp : Nat
  streamId : Nat
  seqNum : Nat
  bytes : List Byte
  poison : Bool
  ptp : Bool
deriving DecidableEq, Repr

/-- A CAN FD message (R371). -/
structure CanMsg where
  ident : Nat
  fd : Bool
  bytes : List Byte
deriving DecidableEq, Repr

/-- A PTP message as the stream manager judges it (R351, R352). -/
inductive PtpMsg where
  | lock (offset : Int)
  | relockMeasured
  | sync (fromMaster : Bool)
  | newGrandmaster
deriving DecidableEq, Repr

/-- Why holdover is entered on a timeout (R352). -/
inductive PtpLoss where
  | syncs
  | announce
deriving DecidableEq, Repr

/-- The operands of the two power emergencies' detectors: package power or a junction (R403). -/
abbrev Celsius10 := Int

/-- A unit that leaves or returns to service (R277). -/
inductive ServUnit where
  | core (n : Nat)
  | pair (c i : Nat)
  | cluster (c : Nat)
  | die (d : Nat)
deriving DecidableEq, Repr

/-- Why a device wakes from Standby (R402). -/
inductive WakeCause where
  | wakeN
  | timer
deriving DecidableEq, Repr

/-- The commands of the block: one constructor per row of spec/opcode_table.json. -/
inductive Instr where
  -- register access (R8-R11, R35)
  | registerWrite (who : Requester) (addr width : Nat) (val : Word)
  | w1cClear (who : Requester) (addr : Nat) (val hw : Word)
  | rcRead (who : Requester) (addr : Nat) (arrive : Word)
  | reg64LowRead (who : Requester) (addr : Nat)
  -- clocks and errors (01)
  | rootPllLock
  | rootPllLockLoss
  | clockMonitorWindow (pclk nclk : Nat)
  | seracClockCheck (count : Nat)
  | cdivWrite (die : Nat) (cdiv : BitVec 3)
  | cclkRestart (die : Nat)
  | dramRetrainDone (die : Nat)
  | errorReport
  | errInject (who : Requester) (lvl : Level) (unit : Nat) (val : BitVec 32)
  -- cores (02)
  | coreStart (core : Nat)
  | coreAbort (core : Nat)
  | semaphoreWrite (who : Requester) (sem : SemId) (val : BitVec 16)
  | bundleDispatch (core : Nat) (flt : DispFault)
  | engineIssue (core : Nat) (eng : EUnit) (flt : EngFault)
  | nop (core : Nat)
  | li (core d : Nat) (imm : BitVec 32)
  | lui (core d : Nat) (imm : BitVec 32)
  | add (core d a b md : Nat) (imm : BitVec 32)
  | sub (core d a b md : Nat) (imm : BitVec 32)
  | and (core d a b md : Nat) (imm : BitVec 32)
  | or (core d a b md : Nat) (imm : BitVec 32)
  | xor (core d a b md : Nat) (imm : BitVec 32)
  | shl (core d a b md : Nat) (imm : BitVec 32)
  | shr (core d a b md : Nat) (imm : BitVec 32)
  | sar (core d a b md : Nat) (imm : BitVec 32)
  | mul (core d a b : Nat)
  | min (core d a b : Nat)
  | max (core d a b : Nat)
  | cmp (core d a b md : Nat)
  | mova (core d a : Nat)
  | movs (core d a : Nat)
  | adda (core d a b md : Nat) (imm : BitVec 32)
  | ld (core d a : Nat) (imm : BitVec 32)
  | st (core b a : Nat) (imm : BitVec 32)
  | br (core : Nat) (imm : BitVec 32)
  | brnz (core a : Nat) (imm : BitVec 32)
  | brz (core a : Nat) (imm : BitVec 32)
  | loop (core a : Nat) (imm : BitVec 32)
  | rdcyc (core d : Nat)
  | rdtime (core d : Nat)
  | sset (core a : Nat) (imm : BitVec 32)
  | sread (core d : Nat) (imm : BitVec 32)
  | swait (core : Nat) (u : EUnit) (imm : BitVec 32)
  | swaitG (core : Nat) (u : EUnit) (imm : BitVec 32)
  | semaphoreGrant (core : Nat) (u : EUnit)
  | ssig (core : Nat) (u : EUnit) (imm : BitVec 32)
  | barCore (core : Nat)
  | barCl (core : Nat) (imm : BitVec 32)
  | barrierRelease (cluster id : Nat)
  | checkpoint (core : Nat)
  | checkpointGap (core : Nat)
  | halt (core : Nat)
  | haltDrained (core : Nat)
  | coreBudgetExpiry (core : Nat)
  -- matrix engine (03)
  | mcfg (core a : Nat)
  | mscale (core a b : Nat)
  | mzero (core t : Nat)
  | mmac (core t a b c : Nat)
  | mld (core t a : Nat)
  | mout (core t d md : Nat) (imm : BitVec 32)
  -- vector engine (02, 03)
  | vld (core d a : Nat) (imm : BitVec 32)
  | vst (core b a : Nat) (imm : BitVec 32)
  | vldg (core d a b : Nat)
  | vbcast (core d a md : Nat)
  | vadd (core d a b md : Nat)
  | vsub (core d a b md : Nat)
  | vmul (core d a b md : Nat)
  | vmin (core d a b md : Nat)
  | vmax (core d a b md : Nat)
  | vfma (core d a b c md : Nat)
  | vabs (core d a md : Nat)
  | vneg (core d a md : Nat)
  | vcmp (core d a b md : Nat) (imm : BitVec 32)
  | vsel (core d a b c md : Nat)
  | vshuf (core d a b md : Nat)
  | vred (core d a md : Nat) (imm : BitVec 32)
  | vexp2 (core d a md : Nat)
  | vlog2 (core d a md : Nat)
  | vrcp (core d a md : Nat)
  | vrsq (core d a md : Nat)
  | vcvt (core d a md : Nat) (imm : BitVec 32)
  | vrope (core d a b md : Nat)
  | vtld (core d t : Nat) (imm : BitVec 32)
  | vtst (core t a : Nat) (imm : BitVec 32)
  | vmovs (core d a md : Nat) (imm : BitVec 32)
  -- core mover, window and attention engines (02, 04, 05)
  | dmvStart (core ch a : Nat)
  | dmvWait (core ch : Nat)
  | dmvStop (core ch : Nat)
  | syncMem (core : Nat)
  | wnRun (core a : Nat)
  | wnAckWaitGrant (core : Nat)
  | wnHaloWaitGrant (core : Nat)
  | wnFinalHaloSettle (core : Nat)
  | atRun (core a : Nat)
  | atMerge (core a : Nat)
  -- Firn (05)
  | tcMissServe (die page : Nat)
  | firnStep (e : Ent) (mi : Nat) (addr : Nat)
  | seqRelease (e : Ent) (seq : Nat)
  | prefixLookup (e : Ent) (mi addr count : Nat)
  | prefixInsert (e : Ent) (seq addr count : Nat)
  | firnQuery (e : Ent) (seq : Nat)
  | firnBoundary (mi : Nat)
  | firnCommit (mi : Nat) (copyUc : List Nat)
  | firnGather (mi : Nat) (notOk : List Nat)
  | firnGatherTimeout (mi : Nat)
  -- Moraine (06)
  | memoryRead (who : Requester) (lab : Label) (addr : Nat) (a1 a2 : Attempt)
  | memoryWrite (who : Requester) (lab : Label) (addr : Nat) (val : Word) (poison : Bool)
  | storeFill (who : Requester) (die : Nat)
  | storeFillDone (die : Nat)
  | mlogClear (log : LogId) (val : BitVec 32) (rec : Option MlogRec)
  -- movers and Drift (07)
  | mvStart (who : Requester) (ch : ChanId) (val : BitVec 32)
  | mvStop (who : Requester) (ch : ChanId)
  | mvDescriptorFetch (ch : ChanId)
  | mvTrigger (ch : ChanId)
  | mvRequest (line : Nat)
  | mvCoreDone (core ch : Nat)
  | mvReadbackDone (ch : ChanId)
  | driftShareWrite (who : Requester) (res cls : Nat) (val : BitVec 32)
  -- Rime rings, jobs, long operations (08)
  | sqDoorbell (fn prio : Nat) (val : BitVec 32)
  | cqHeadWrite (fn prio : Nat) (val : BitVec 32)
  | instanceOpen (fn : Nat)
  | entryConsume
  | msixSend (fn vec : Nat)
  | jobRun (e : Ent) (timed : Bool) (image start : Word) (args : List Word)
  | jobCancel (e : Ent) (w0 : Word)
  | modelLoad (e : Ent) (addr len : Nat)
  | modelUnload (e : Ent) (image : Word)
  | longSuspend (e : Ent) (w0 : Word)
  | longResume (e : Ent) (w0 : Word)
  | longCancel (e : Ent) (w0 : Word)
  | longOpPoint (e : Ent) (flashErr : Bool)
  | memFill (e : Ent) (base len : Nat) (pattern w3 : Word)
  | selftest (e : Ent) (w0 w1 w2 : Word)
  | fwStage (e : Ent) (addr len : Nat) (slot : Nat)
  | tenantScrub (e : Ent)
  | kvCompact (e : Ent) (mi pages : Nat)
  | queryCounts (e : Ent)
  | kernelEnd (job : Nat)
  | contextSwitchDone (job : Nat)
  | fallbackTimer (job : Nat)
  | wdtKick (who : Requester) (p : Nat) (val : BitVec 32)
  | watchdogExpiry (p : Nat) (pc : Word)
  | rimeRestartComplete (p : Nat)
  | logEntry (proc lvl point : Nat) (arg0 arg1 : Word)
  | schedEpoch
  -- Serac (09)
  | seracHeartbeat (pair : Nat) (arrived : Bool)
  | lockstepWindow (pair : Nat) (sigLead sigTrail : Word)
  | seracInputLatch (pair : Nat) (tries : List (Word × Word))
  | twinCompare (cluster pair : Nat)
  | twinAbsentTimeout (cluster pair : Nat)
  | mismatchDecision
  | taskWindowJudge (task : Nat)
  | injectionTimeout (bit : Nat)
  | selftestSliceStart
  | selftestSliceEnd (pass : Bool)
  | selftestAgeCheck
  | railSample (rail mv : Nat)
  | seracFaultResponse
  | dieRestartDone (die : Nat) (pass : Bool)
  | deviceRestartReady
  -- Baseth (10)
  | flitReceive (port : Nat) (f : Flit) (fecLanes : List Nat)
  | portRetrainDone (port : Nat) (ok : Bool)
  | portPeerTimeout (port : Nat)
  | portTrain (port : Nat) (peer : Word) (peerPort gen planHash : Nat)
  | fmElection (peers : List FmPeer) (x y z : Nat) (wired : Bool)
  | fmTakeover
  | linkMapDistribute (links : List LinkRec) (at_ : Word)
  | fabricEpoch
  | staleFlitDiscard
  | returnPrepare (port : Nat) (lanes : Nat) (whole : Bool) (deadline : Word)
  | returnAnswer (port : Nat) (ownErrors : Nat) (peerReady : Bool) (epochAt : Word)
  | returnCommit (port : Nat) (peerMarker : Bool)
  | returnAbort (port : Nat)
  | bondMarkerTimeout (port : Nat)
  | returnDeadline (port : Nat)
  | conduitTrigger (n : Nat)
  | conduitMessage (n : Nat) (m : CndMsg)
  | conduitAck (n : Nat)
  | conduitFree (n : Nat)
  -- host interface and mailbox (11)
  | apertureRead (fn off : Nat)
  | apertureWrite (fn off : Nat) (val : Word) (ep : Bool)
  | functionLevelReset (fn : Nat)
  | instConfig (m : Mbx) (pairs : Nat) (recs : List Nat)
  | aptMap (m : Mbx) (entry : Nat) (w2 : Word)
  | instQuiesce (m : Mbx) (cancel : Bool)
  | instanceQuiesced (inst : Nat)
  | instReset (m : Mbx)
  | instRemove (m : Mbx)
  | dirtyStart (m : Mbx) (base : Nat)
  | dirtyHarvest (m : Mbx) (first words dest : Nat)
  | dirtyStop (m : Mbx)
  | countsRead (m : Mbx)
  | logSetup (m : Mbx) (base log2 : Nat) (mask : Word)
  | linkReturn (m : Mbx) (w1 : Word)
  | conduitBind (m : Mbx) (n : Nat) (fields : List Word)
  | conduitUnbind (m : Mbx) (n : Nat)
  -- management network and worlds (12)
  | mctpControl (req : List Byte)
  | getVersion (ses : Nat)
  | getCapabilities (ses : Nat)
  | negotiateAlgorithms (ses : Nat)
  | getDigests (ses : Nat)
  | getCertificate (ses slot off len : Nat)
  | challenge (ses : Nat) (nonce : BitVec 256)
  | getMeasurements (ses idx : Nat) (nonce : BitVec 256)
  | keyExchange (ses : Nat) (mutAuth : Bool) (exch : List Byte)
  | finish (ses : Nat) (chain : List Byte) (verify : List Byte)
  | heartbeat (ses : Nat)
  | keyUpdate (ses : Nat)
  | endSession (ses : Nat)
  | getEncapsulatedRequest (ses : Nat)
  | deliverEncapsulatedResponse (ses : Nat) (resp : List Byte)
  | tenantAssign (ses : Nat) (id : Word)
  | tenantQuery (ses : Nat)
  | keyLoad (ses slot : Nat) (image : Word) (key : BitVec 256)
  | keyErase (ses slot : Nat)
  | debugAuth (ses : Nat) (dbg : BitVec 4)
  | retireClear (ses die stack pch : Nat)
  | rootSet (ses idx : Nat) (digest : BitVec 384)
  | wmSet (ses : Nat) (wm : Nat)
  | frostTrigger (ses : Nat)
  | frostRead (ses addr words : Nat)
  | mgtIcecoreRead (ses age off len : Nat)
  | wcall (p : Nat)
  | wret (p : Nat)
  | secureInterrupt (p : Nat)
  | monVersion (p : Nat)
  | pmClaim (p : Nat)
  | pmRelease (p : Nat)
  | enclCreate (p : Nat)
  | enclAdd (p : Nat)
  | enclInit (p : Nat)
  | enclEnter (p : Nat)
  | enclExit (p : Nat)
  | enclInterruptExit (p : Nat)
  | enclDestroy (p : Nat)
  | debugAccess (write : Bool) (addr width : Nat) (val : Word) (snapshot : Bool)
  | clockCutRequest (w : World) (val : Word)
  | powerCutRequest (w : World) (val : Word)
  -- Snowline, streams and gateway (13)
  | snowIncrWrite (who : Requester) (val : Word)
  | snowSlewWrite (who : Requester) (val : Word)
  | snowStepWrite (who : Requester) (val : Word)
  | relock (who : Requester)
  | snowNsRead (who : Requester) (half : Bool)
  | ptpSyncTimeout (why : PtpLoss)
  | ptpMessage (m : PtpMsg)
  | cmpArm (who : Requester) (u : Nat)
  | cmpDisarm (who : Requester) (u : Nat)
  | compareFire (u : Nat)
  | ttqPush (who : Requester) (q : Nat)
  | timedJobPrepare (job : Nat)
  | captureEdge (c : Nat) (rising : Bool)
  | capInfoRead (who : Requester) (c : Nat)
  | csi2FrameStart (str : Nat)
  | csi2Line (str dt : Nat) (pixels : List Nat) (crcOk hdrOk : Bool)
  | csi2FrameEnd (str : Nat)
  | ethFrameReceive (port : Nat) (f : EthFrame)
  | txQueuePoll (q : Nat)
  | ethFrameSent (port frameId : Nat) (q : Option Nat)
  | tsqInfoRead (who : Requester) (port : Nat)
  | gateChange (port : Nat)
  | canFrameReceive (n : Nat) (m : CanMsg)
  | canLaunch (n : Nat)
  | canTransmitDone (n : Nat)
  | canBusOffRecovery (n : Nat)
  -- Cornice (14)
  | passRingPoll
  | mapRingPoll
  | tileDispatch
  | binGrow
  | growPoll
  | growWaitExpiry
  | passBudgetExpiry
  | passDone
  | eventSlotFree (map : Bool)
  | mapJob
  | vfetch (core : Nat)
  | vemit (core a : Nat)
  | rfetch (core : Nat)
  | tex (core d a b c : Nat) (imm : BitVec 32)
  | pxld (core d : Nat) (imm : BitVec 32)
  | pxst (core a : Nat) (imm : BitVec 32)
  | pxdone (core : Nat)
  | ray (core d a : Nat)
  | end_ (core : Nat)
  | vblankStart (head : Nat)
  | headLineStart (head line : Nat) (fetched : Bool)
  | headFrameStart (head : Nat)
  -- bring-up and lifetime (15)
  | coldStart
  | deviceReady
  | recoveryLoad (m : Mbx) (slot len : Nat)
  | modeSet (m : Mbx) (w1 w2 : Word)
  | modeChangeDone
  | idleEntry
  | idleExit (core : Nat)
  | standbyWake (why : WakeCause)
  | thermEmergSet (tj : List Celsius10)
  | thermEmergClear (tj : List Celsius10)
  | powerEmergSet (pkg : Nat)
  | powerEmergClear (pkg : Nat)
  | throttleTimeout
  | emergencyHoldTimer
  | junctionLimit (die : Nat) (tj : Celsius10)
  | fwActivate (m : Mbx) (slot : Nat)
  | fwActivationTimeout
  | nvmStore (m : Mbx) (region src len : Nat)
  | nvmRead (m : Mbx) (region dest : Nat)
  | icecoreWrite (m : Mbx)
  | icecoreRead (m : Mbx) (age dest : Nat)
  | icecorePeriodicWrite
  | icecoreSample (tj : List Celsius10) (rails : List Nat)
  | frostArm (m : Mbx) (val : BitVec 32)
  | frostTrig
  | frostLatch
  -- pins (16)
  | safePorstN (level : Bool)
  | porstN (level : Bool)
  | perstN (level : Bool)
  | trstN (level : Bool)
  | avsTargetReached (die : Nat)
  | avsTimeout (die : Nat)
  | safetyWindowOpen (task : Nat)
  | seracPairRejoin (pair : Nat)
  | dieLinkFailure
  | powerLoss
  | dpHotPlug (head : Nat) (up : Bool) (lanes : Nat)
  | deskewCalibration (rx lanes : Nat)
  | addressAgeing (mac : BitVec 48) (vlan : Nat)
deriving DecidableEq, Repr

end Sys2Proof
end

