-- ==== Sys2Proof/Decode.lean ====
section
/-! DEFINITION. The commands of the block are events, register accesses and operations of its interfaces: the opcode
table gives none of its rows a bit encoding, so no word spells a command. (An instruction of a core program does have
a word: its slot, decoded by Machine/Operands.lean where BUNDLE_DISPATCH meets it.) -/

namespace Sys2Proof

/-- The command a word of the opcode table's bits spells: none, since no row gives bits. -/
def decodeTableWord (nbits w : Nat) : Option Instr :=
  match nbits, w with
  | _, _ => none

end Sys2Proof
end

