-- ==== Sys2Proof/Config.lean ====
section
/-! DEFINITION. What the spec leaves open, as constants without a body: nothing in Lean can evaluate one or prove a
value of it, so a claim that holds of the model holds whatever they are. A meaning that needs a fresh open value
applies one to the state's counter `free`. Each is named in the assumption log. -/

namespace Sys2Proof.Config

/-- An open value where the spec states no result: the n-th one drawn (log entry 2). -/
opaque freeWord : Nat → Word

/-- How far a bounded transcendental result (R100) lies from the exact value, in the units of the bound: by
operation, operand bits and element kind. Used only within the bound (log entry 3). -/
opaque transErr : Nat → Nat → Int

/-- The stripe-group member that holds a line in Strong mode: a placement the spec calls the controller's own
(R171), by die offset (log entry 12). -/
opaque lineHolder : Nat → Nat

/-- AES-GCM (R301, R303): ciphertext of key, counter, header and plaintext. -/
opaque gcmSeal : BitVec 256 → Nat → List Nat → List Word → List Word
/-- AES-GCM tag of key, counter, header and ciphertext. -/
opaque gcmTag : BitVec 256 → Nat → List Nat → List Word → BitVec 128
/-- AES-GCM plaintext of key, counter, header and ciphertext. -/
opaque gcmOpen : BitVec 256 → Nat → List Nat → List Word → List Word

/-- The content key of a weight section (R340): of the device identity, the ephemeral point's bytes and the wrapped
key; nothing where the unwrap's integrity check fails. -/
opaque weightKey : Nat → List Byte → List Byte → Option (BitVec 256)
/-- The AES-256-GCM tag of a weight chunk: key, nonce, chunk index, header and ciphertext (R340). -/
opaque weightTag : BitVec 256 → Nat → Nat → List Byte → List Byte → List Byte
/-- A weight chunk's plaintext: key, nonce, chunk index and ciphertext (R340). -/
opaque weightOpen : BitVec 256 → Nat → Nat → List Byte → List Byte

/-- AES key unwrap (R345): the plain key, or nothing where the wrap does not verify. -/
opaque keyUnwrap : BitVec 256 → BitVec 256 → Option (BitVec 256)

/-- SHA-384 of bytes. -/
opaque sha384 : List Byte → BitVec 384

/-- Does a signed package verify (R396, R406, R341): the bytes, and the security version they carry. -/
opaque verifyPackage : List Byte → Option Nat

/-- An SPDM answer's bytes (R343): the request, its parameters and the session. -/
opaque spdmBytes : Nat → List Nat → List Byte

/-- Does the chain and signature a requester presents verify against the management root (R343, R345)? -/
opaque spdmVerify : BitVec 384 → List Byte → List Byte → Bool

/-- The content bytes of a settings region that the device itself stores: region and sequence number (log entry 20). -/
opaque freeBytes : Nat → Nat → List Byte

/-- The entries behind a region's 16-byte header (R410): region and content, as the table each entry follows and its
fields in row order. The spec gives neither the type codes nor the field widths (log entry 20). -/
opaque regionEntries : Nat → List Byte → Option (List (Nat × List Nat))

/-- Which of several allowed candidates the device takes where the spec names none (a FREE page of the pool, a way of
a full set), by the number of choices made before (log entry 22). -/
opaque choice : Nat → Nat

/-- Does a primitive cover a pixel (R377, R379)? Of its three clip positions, the target's width and height, x and y:
the spec gives neither the viewport nor the fill rule (log entry 26). -/
opaque covers : List (List (BitVec 32)) → Nat → Nat → Nat → Nat → Bool
/-- A pixel's barycentric b1 or b2 (0, 1) or depth (2) (log entry 26). -/
opaque pixelValue : Nat → List (List (BitVec 32)) → Nat → Nat → Nat → Nat → BitVec 32

/-- A filtered channel (R386): of the FP32 fractions and the texels, the order of whose operations is not given (log
entry 27). -/
opaque texBlend : List Nat → List Nat → Nat

/-- The watertight FP32 test (R388): t, u and v of a ray and a triangle (log entry 28). -/
opaque rayTri : List Nat → List Nat → Nat × Nat × Nat
/-- Where a ray enters a box, as an FP32 distance, or nothing where it misses it (R388; log entry 28). -/
opaque boxEntry : List Nat → List Nat → Option Nat

/-- The 32-bit hash of a fabric plan that ports exchange (R287): of its fields. -/
opaque planHash : List Nat → Nat

/-- The CRC-32 of an Icecore record (R413): its initial value and reflection are not given. -/
opaque recordCrc : List Nat → Nat

/-- The monitor vector of each Rime processor, fixed by hub ROM (R331). -/
opaque monVector : Nat → Word

/-- The monitor version MON_VERSION returns (Table 12.5). -/
opaque monVersion : Word

end Sys2Proof.Config
end

