-- ==== Sys2Proof/Machine/Tab.lean ====
section
/-! DEFINITION. Tables keyed by numbers: a sorted list of key and value pairs in which a key that is not listed
reads as a default. Registers, per-unit state and sparse hardware tables are held this way, so that two equal
tables written in the same order are equal data. -/

namespace Sys2Proof

/-- A table from a unit number, address or index to a value. -/
abbrev Tab (α : Type) := List (Nat × α)

/-- The value at key `k`, or `d` where nothing is listed. -/
def Tab.get {α : Type} (d : α) : Tab α → Nat → α
  | [], _ => d
  | (k', v) :: t, k => if k' = k then v else Tab.get d t k

/-- The value at key `k`, if one is listed. -/
def Tab.find {α : Type} : Tab α → Nat → Option α
  | [], _ => none
  | (k', v) :: t, k => if k' = k then some v else Tab.find t k

/-- The table with `v` at key `k`, kept in ascending key order. -/
def Tab.set {α : Type} : Tab α → Nat → α → Tab α
  | [], k, v => [(k, v)]
  | (k', v') :: t, k, v =>
    if k < k' then (k, v) :: (k', v') :: t
    else if k' = k then (k, v) :: t
    else (k', v') :: Tab.set t k v

/-- The table without key `k`. -/
def Tab.del {α : Type} (t : Tab α) (k : Nat) : Tab α := t.filter (fun e => e.1 != k)

/-- The table with the value at `k` changed by `f` (from the default `d` where nothing is listed). -/
def Tab.upd {α : Type} (d : α) (t : Tab α) (k : Nat) (f : α → α) : Tab α := Tab.set t k (f (Tab.get d t k))

/-- Keys in strictly ascending order. -/
def Tab.sorted {α : Type} : Tab α → Bool
  | [] => true
  | [_] => true
  | (k, _) :: (k', v') :: t => decide (k < k') && Tab.sorted ((k', v') :: t)

/-- A set of numbers, kept in ascending order without repeats. -/
abbrev NatSet := List Nat

/-- The set with `k` in it. -/
def NatSet.ins (k : Nat) : NatSet → NatSet
  | [] => [k]
  | x :: xs => if k < x then k :: x :: xs else if x = k then x :: xs else x :: NatSet.ins k xs

/-- The set without `k`. -/
def NatSet.rem (k : Nat) (s : NatSet) : NatSet := s.filter (fun x => x != k)

/-- Apply `f` for each of `0, 1, ..., n - 1` in ascending order. -/
def forUpTo {σ : Type} (n : Nat) (f : Nat → σ → σ) (s : σ) : σ := (List.range n).foldl (fun t i => f i t) s

end Sys2Proof
end

