-- ==== Sys2Proof/Machine/Bits.lean ====
section
/-! DEFINITION. Bit fields written as the spec writes them, `REG[hi:lo]` (Notation, 00), sign extension, saturating
counters and byte order (R7). -/

namespace Sys2Proof

/-- The field `[hi:lo]` of a word, as a number. -/
def fld (v : Word) (hi lo : Nat) : Nat := v.toNat / 2 ^ lo % 2 ^ (hi + 1 - lo)

/-- Bit `i` of a word. -/
def bit (v : Word) (i : Nat) : Bool := v.getLsbD i

/-- The mask of the field `[hi:lo]`. -/
def maskOf (hi lo : Nat) : Word := BitVec.ofNat 64 ((2 ^ (hi + 1 - lo) - 1) * 2 ^ lo)

/-- The word with the field `[hi:lo]` replaced by `x` (its low bits). -/
def setFld (v : Word) (hi lo : Nat) (x : Nat) : Word :=
  (v &&& ~~~ maskOf hi lo) ||| (BitVec.ofNat 64 (x * 2 ^ lo) &&& maskOf hi lo)

/-- The word with bit `i` set to `b`. -/
def setBit (v : Word) (i : Nat) (b : Bool) : Word := setFld v i i (if b then 1 else 0)

/-- A word holding the single bit `i`. -/
def oneBit (i : Nat) : Word := BitVec.ofNat 64 (2 ^ i)

/-- The number of bits set among the low 64. -/
def popcount (v : Word) : Nat := ((List.range 64).filter (fun i => v.getLsbD i)).length

/-- A 32-bit immediate sign-extended to 64 bits (Table 02.3). -/
def sextImm (imm : BitVec 32) : Word := imm.signExtend 64

/-- `x + n`, held at the largest value of a `w`-bit counter (the counters the spec calls saturating). -/
def satAdd (w x n : Nat) : Nat := if x + n < 2 ^ w then x + n else 2 ^ w - 1

/-- Bits as a number. -/
def b2n (b : Bool) : Nat := if b then 1 else 0

/-- ⌈a / b⌉. -/
def ceilDiv (a b : Nat) : Nat := if b = 0 then 0 else (a + b - 1) / b

/-- Byte `i` of a word, byte 0 the least significant (R7). -/
def byteOf (v : Word) (i : Nat) : Byte := BitVec.ofNat 8 (v.toNat / 2 ^ (8 * i))

/-- The word whose little-endian bytes are `bs` (R7). -/
def ofBytesLE : List Byte → Nat
  | [] => 0
  | b :: bs => b.toNat + 256 * ofBytesLE bs

/-- The `n` little-endian bytes of a number (R7). -/
def bytesLE (n x : Nat) : List Byte := (List.range n).map (fun i => BitVec.ofNat 8 (x / 2 ^ (8 * i)))

/-- A number split into `w`-bit elements, element 0 lowest (R79). -/
def chunksOf (w n x : Nat) : List Nat := (List.range n).map (fun i => x / 2 ^ (w * i) % 2 ^ w)

/-- A `w`-bit pattern read as two's complement. -/
def toSigned (w x : Nat) : Int := if x % 2 ^ w < 2 ^ (w - 1) then (x % 2 ^ w : Nat) else ((x % 2 ^ w : Nat) : Int) - (2 ^ w : Nat)

/-- An integer as a `w`-bit two's complement pattern. -/
def ofSigned (w : Nat) (z : Int) : Nat := (z % (2 ^ w : Nat)).toNat

/-- CRC-64 of R257: polynomial 0x42F0_E1EB_A9EA_3693, most significant bit first, no reflection, no final XOR. -/
def crc64Byte (crc : Word) (b : Byte) : Word :=
  (List.range 8).foldl (fun c _ => if c.getLsbD 63 then (c <<< 1) ^^^ 0x42F0E1EBA9EA3693#64 else c <<< 1)
    (crc ^^^ (b.zeroExtend 64 <<< 56))

/-- CRC-64 of R257 over bytes, continuing from `crc`. -/
def crc64 (crc : Word) (bs : List Byte) : Word := bs.foldl crc64Byte crc

/-- The bytes of a 64-bit value as they are folded: least significant byte first (R257). -/
def foldBytes (n : Nat) (x : Nat) : List Byte := bytesLE n x

end Sys2Proof
end

