-- ==== Sys2Proof/Machine/Fp.lean ====
section
/-! DEFINITION. Number formats (03): exact dyadic values, the encodings of Tables 03.1 and 03.2, rounding and overflow
(R77, R94, R95), arithmetic rounded once (R97), and the bounded transcendentals (R100). -/

namespace Sys2Proof.Machine

/-- A floating-point value: NaN, an infinity, or (-1)^neg × m × 2^e exactly (m = 0 is a signed zero). -/
inductive FVal where
  | nan
  | inf (neg : Bool)
  | fin (neg : Bool) (m : Nat) (e : Int)
deriving DecidableEq, Repr

/-- How a format uses its all-ones exponent (Table 03.2). -/
inductive FKind where
  | ieee
  | e4m3
  | finite
deriving DecidableEq, Repr

/-- A floating-point format: exponent bits, mantissa bits, bias (Table 03.2). -/
structure FFmt where
  eb : Nat
  mb : Nat
  bias : Int
  kind : FKind
deriving DecidableEq, Repr

def fp4 : FFmt := ⟨2, 1, 1, .finite⟩
def fp6e2 : FFmt := ⟨2, 3, 1, .finite⟩
def fp6e3 : FFmt := ⟨3, 2, 3, .finite⟩
def fp8e4 : FFmt := ⟨4, 3, 7, .e4m3⟩
def fp8e5 : FFmt := ⟨5, 2, 15, .ieee⟩
def fp16 : FFmt := ⟨5, 10, 15, .ieee⟩
def bf16 : FFmt := ⟨8, 7, 127, .ieee⟩
def fp32 : FFmt := ⟨8, 23, 127, .ieee⟩

/-- Bits of an element. -/
def FFmt.width (f : FFmt) : Nat := 1 + f.eb + f.mb

/-- The magnitude pattern of the largest finite value. -/
def FFmt.maxFin (f : FFmt) : Nat :=
  match f.kind with
  | .ieee => (2 ^ f.eb - 1) * 2 ^ f.mb - 1
  | .e4m3 => 2 ^ (f.eb + f.mb) - 2
  | .finite => 2 ^ (f.eb + f.mb) - 1

/-- The canonical NaN (R77); a format without NaN has none, and 0 stands for it. -/
def FFmt.canonNan (f : FFmt) : Nat :=
  match f.kind with
  | .ieee => (2 ^ f.eb - 1) * 2 ^ f.mb + 2 ^ (f.mb - 1)
  | .e4m3 => 2 ^ (f.eb + f.mb) - 1
  | .finite => 0

/-- The value an element's bits stand for (R76). -/
def FFmt.decode (f : FFmt) (x : Nat) : FVal :=
  let neg := x / 2 ^ (f.eb + f.mb) % 2 == 1
  let mag := x % 2 ^ (f.eb + f.mb)
  let ex := mag / 2 ^ f.mb
  let man := mag % 2 ^ f.mb
  let special := match f.kind with
    | .ieee => ex == 2 ^ f.eb - 1
    | .e4m3 => mag == 2 ^ (f.eb + f.mb) - 1
    | .finite => false
  if special then
    (match f.kind with
      | .ieee => if man = 0 then .inf neg else .nan
      | _ => .nan)
  else if ex = 0 then .fin neg man (1 - f.bias - f.mb)
  else .fin neg (2 ^ f.mb + man) ((ex : Int) - f.bias - f.mb)

/-- Rounding mode of a conversion (Table 03.6): MOD 0 nearest even, 1 toward zero, 2 nearest even saturating. -/
inductive Rnd where
  | rne
  | rz
  | rneSat
deriving DecidableEq, Repr

/-- m × 2^sh (sh ≥ 0) or m / 2^-sh rounded to an integer, to nearest even or toward zero. -/
def roundShift (rz : Bool) (m : Nat) (sh : Int) : Nat :=
  match sh with
  | .ofNat k => m * 2 ^ k
  | .negSucc k =>
    let d := 2 ^ (k + 1)
    let q := m / d
    let r := m % d
    if rz then q
    else if d < 2 * r ∨ (2 * r = d ∧ q % 2 = 1) then q + 1 else q

/-- The number of bits of `n` (0 for 0). -/
def bitLen (n : Nat) : Nat := if n = 0 then 0 else Nat.log2 n + 1

/-- The magnitude pattern of m × 2^e rounded to the format, unbounded above: it exceeds `maxFin` on overflow. -/
def FFmt.roundMag (f : FFmt) (rz : Bool) (m : Nat) (e : Int) : Nat :=
  if m = 0 then 0
  else
    let top : Int := (bitLen m : Int) - 1 + e
    let emin : Int := 1 - f.bias
    let q : Int := (if top < emin then emin else top) - f.mb
    let n := roundShift rz m (e - q)
    (q - (emin - f.mb)).toNat * 2 ^ f.mb + n

/-- A value rounded to a format (Tables 03.6, 03.7). A format with infinities overflows to ±∞ under MOD 0, to the
largest finite value under MOD 1 and 2; FP8-E4M3 overflows to NaN under MOD 0. A format without infinity or NaN
saturates. -/
def FFmt.encode (f : FFmt) (r : Rnd) (v : FVal) : Nat :=
  let sgn (neg : Bool) : Nat := if neg then 2 ^ (f.eb + f.mb) else 0
  match v with
  | .nan => f.canonNan
  | .inf neg =>
    (match f.kind with
      | .ieee => if r = .rneSat then sgn neg + f.maxFin else sgn neg + (2 ^ f.eb - 1) * 2 ^ f.mb
      | .e4m3 => if r = .rneSat then sgn neg + f.maxFin else f.canonNan
      | .finite => sgn neg + f.maxFin)
  | .fin neg m e =>
    let x := f.roundMag (r = .rz) m e
    if x ≤ f.maxFin then sgn neg + x
    else if r = .rne then
      (match f.kind with
        | .ieee => sgn neg + (2 ^ f.eb - 1) * 2 ^ f.mb
        | .e4m3 => f.canonNan
        | .finite => sgn neg + f.maxFin)
    else sgn neg + f.maxFin

/-! ### Exact arithmetic -/

/-- An integer as a value. -/
def FVal.ofInt (z : Int) : FVal := .fin (z < 0) z.natAbs 0

/-- Exact product (IEEE 754 special values). -/
def FVal.mul : FVal → FVal → FVal
  | .nan, _ => .nan
  | _, .nan => .nan
  | .inf n, .inf n' => .inf (n != n')
  | .inf n, .fin n' m _ => if m = 0 then .nan else .inf (n != n')
  | .fin n m _, .inf n' => if m = 0 then .nan else .inf (n != n')
  | .fin n m e, .fin n' m' e' => .fin (n != n') (m * m') (e + e')

/-- A signed magnitude as an integer. -/
def sgnInt (neg : Bool) (m : Nat) : Int := if neg then -(m : Int) else m

/-- Exact sum; an exact zero sum of unlike signs is +0. -/
def FVal.add : FVal → FVal → FVal
  | .nan, _ => .nan
  | _, .nan => .nan
  | .inf n, .inf n' => if n = n' then .inf n else .nan
  | .inf n, .fin _ _ _ => .inf n
  | .fin _ _ _, .inf n => .inf n
  | .fin n m e, .fin n' m' e' =>
    let lo := if e < e' then e else e'
    let z := sgnInt n m * 2 ^ (e - lo).toNat + sgnInt n' m' * 2 ^ (e' - lo).toNat
    if z = 0 then .fin (n && n') 0 lo else .fin (z < 0) z.natAbs lo

def FVal.neg : FVal → FVal
  | .nan => .nan
  | .inf n => .inf (!n)
  | .fin n m e => .fin (!n) m e

/-- Order of two values that are not NaN: -1, 0 or 1; zeros are equal. -/
def FVal.cmp : FVal → FVal → Int
  | .inf n, .inf n' => if n = n' then 0 else if n then -1 else 1
  | .inf n, _ => if n then -1 else 1
  | _, .inf n => if n then 1 else -1
  | .fin n m e, .fin n' m' e' =>
    let lo := if e < e' then e else e'
    let z := sgnInt n m * 2 ^ (e - lo).toNat - sgnInt n' m' * 2 ^ (e' - lo).toNat
    if z < 0 then -1 else if z = 0 then 0 else 1
  | _, _ => 0

/-- The sign of a value that is not NaN. -/
def FVal.isNeg : FVal → Bool
  | .nan => false
  | .inf n => n
  | .fin n _ _ => n

/-- VMIN and VMAX (R97): NaN when either is NaN, -0 below +0. -/
def FVal.min (a b : FVal) : FVal :=
  if a = .nan ∨ b = .nan then .nan
  else match a.cmp b with
    | 0 => if a.isNeg then a else b
    | z => if z < 0 then a else b

def FVal.max (a b : FVal) : FVal :=
  if a = .nan ∨ b = .nan then .nan
  else match a.cmp b with
    | 0 => if a.isNeg then b else a
    | z => if z < 0 then b else a

/-- A value × 2^-s rounded to an integer (Table 03.6, integer output); an infinity has none. -/
def FVal.toInt (rz : Bool) (s : Nat) : FVal → Int
  | .fin n m e => sgnInt n (roundShift rz m (e - s))
  | _ => 0

/-! ### Transcendentals (R100) -/

/-- ⌊√n⌋ by bits, from bit `k` down. -/
def isqrtAux (n : Nat) : Nat → Nat → Nat
  | 0, r => if (r + 1) * (r + 1) ≤ n then r + 1 else r
  | k + 1, r => isqrtAux n k (if (r + 2 ^ (k + 1)) * (r + 2 ^ (k + 1)) ≤ n then r + 2 ^ (k + 1) else r)

def isqrt (n : Nat) : Nat := isqrtAux n (bitLen n / 2) 0

/-- 2^f for a fraction f = x / 2^64, as a number over 2^128: the product of 2^(2^-i) over the bits of f. -/
def exp2Frac (x : Nat) : Nat :=
  ((List.range 64).foldl (fun (acc : Nat × Nat) i =>
      let c := isqrt (acc.2 * 2 ^ 128)
      (if x / 2 ^ (63 - i) % 2 = 1 then acc.1 * c / 2 ^ 128 else acc.1, c)) (2 ^ 128, 2 ^ 129)).1

/-- log2 of m / 2^192 in [1, 2), as a number over 2^64, by repeated squaring. -/
def log2Frac (m : Nat) : Nat :=
  ((List.range 64).foldl (fun (acc : Nat × Nat) _ =>
      let y := acc.1 * acc.1 / 2 ^ 192
      if 2 ^ 193 ≤ y then (y / 2, acc.2 * 2 + 1) else (y, acc.2 * 2)) (m, 0)).2

/-- A close dyadic approximation of the exact result (relative error below 2^-60), and whether the spec asks for it
exactly (Table 03.10). 0 VEXP2, 1 VLOG2, 2 VRCP, 3 VRSQ. -/
def transApprox (op : Nat) (neg : Bool) (m : Nat) (e : Int) : FVal × Bool :=
  match op with
  | 0 =>
    let z : Int := sgnInt neg m
    let fixed : Int := if 0 ≤ e + 64 then z * 2 ^ (e + 64).toNat else z / 2 ^ (-(e + 64)).toNat
    let k : Int := fixed / 2 ^ 64
    let f := (fixed % 2 ^ 64).toNat
    let isInt := decide (0 ≤ e) || decide (m % 2 ^ (-e).toNat = 0)
    (.fin false (exp2Frac f) (k - 128), isInt)
  | 1 =>
    let l := bitLen m
    let x := m * 2 ^ (193 - l)
    let i : Int := (l : Int) - 1 + e
    let y : Int := i * 2 ^ 64 + (log2Frac x : Nat)
    (.fin (y < 0) y.natAbs (-64), m == 2 ^ (l - 1))
  | 2 =>
    let l := bitLen m
    (.fin neg (2 ^ (l + 100) / m) (-(e + l + 100)), m == 2 ^ (l - 1))
  | _ =>
    let m' := if e % 2 = 0 then m else 2 * m
    let e' := if e % 2 = 0 then e else e - 1
    let l := bitLen m'
    let k := l + 100
    (.fin false (isqrt (2 ^ (2 * k) / m')) (-(k : Int) - e' / 2), isqrt m' * isqrt m' == m' && bitLen m' % 2 == 1
      && m' == 2 ^ (bitLen m' - 1))

/-- The distance between a pattern's value, its sign unlike y's where `flip`, and y, in units of 2^-64 of y's own
spacing `q` (exponent). -/
def ulpDist (f : FFmt) (flip : Bool) (mag : Nat) (y : FVal) (q : Int) : Nat :=
  match f.decode mag, y with
  | .fin _ m e, .fin _ m' e' =>
    let sh (x : Nat) (k : Int) : Int := if 0 ≤ k then (x : Int) * 2 ^ k.toNat else (x : Int) / 2 ^ (-k).toNat
    let z := sh m (e - q + 64)
    ((if flip then -z else z) - sh m' (e' - q + 64)).natAbs
  | _, _ => 2 ^ 200

/-- The spacing of a format at a value (R100: subnormal spacing included), as an exponent. -/
def ulpExp (f : FFmt) (y : FVal) : Int :=
  match y with
  | .fin _ m e =>
    let top : Int := (bitLen m : Int) - 1 + e
    let emin : Int := 1 - f.bias
    (if top < emin then emin else top) - f.mb
  | _ => 0

/-- A bounded result (R100): the correctly rounded value moved by an open number of steps, as long as it stays
within `bound` (in 2^-64 ulp, or of the absolute spacing 2^q when given) and finite. -/
def boundedResult (f : FFmt) (op bits : Nat) (y : FVal) (exact : Bool) (q : Int) (bound : Nat) : Nat :=
  let r0 := f.encode .rne y
  if exact then r0
  else
    let mag := r0 % 2 ^ (f.eb + f.mb)
    let c := (mag : Int) + Config.transErr op bits
    if c.natAbs ≤ f.maxFin ∧ mag ≤ f.maxFin ∧ ulpDist f (decide (c < 0)) c.natAbs y q ≤ bound * 2 ^ 64 then
      (if c < 0 then (r0 - mag + 2 ^ (f.eb + f.mb)) % 2 ^ f.width else r0 - mag) + c.natAbs
    else r0

/-- The special values of Table 03.10, and otherwise a result within the bound. -/
def transcend (f : FFmt) (op bits : Nat) : Nat :=
  let zeroN (n : Bool) := f.encode .rne (.fin n 0 0)
  let infN (n : Bool) := f.encode .rne (.inf n)
  let full := f.mb = 23
  match op, f.decode bits with
  | _, .nan => f.canonNan
  | 0, .inf n => if n then zeroN false else infN false
  | 0, .fin n m e =>
    let x : FVal := .fin n m e
    if 0 ≤ x.cmp (.ofInt (if full then 128 else 16)) then infN false
    else if x.cmp (.ofInt (if full then -150 else -25)) ≤ 0 then zeroN false
    else
      let (y, ex) := transApprox 0 n m e
      boundedResult f 0 bits y ex (ulpExp f y) (if full then 2 else 1)
  | 1, .inf n => if n then f.canonNan else infN false
  | 1, .fin n m e =>
    if m = 0 then infN true
    else if n then f.canonNan
    else
      let (y, ex) := transApprox 1 n m e
      let x : FVal := .fin false m e
      let inside := decide (0 ≤ x.cmp (.fin false 3 (-2))) && decide (x.cmp (.fin false 3 (-1)) ≤ 0)
      if inside then boundedResult f 1 bits y ex (if full then -22 else -11) 1
      else boundedResult f 1 bits y ex (ulpExp f y) (if full then 2 else 1)
  | 2, .inf n => zeroN n
  | 2, .fin n m e =>
    if m = 0 then infN n
    else
      let (y, ex) := transApprox 2 n m e
      boundedResult f 2 bits y ex (ulpExp f y) 1
  | _, .inf n => if n then f.canonNan else zeroN false
  | _, .fin n m e =>
    if m = 0 then infN n
    else if n then f.canonNan
    else
      let (y, ex) := transApprox 3 n m e
      boundedResult f 3 bits y ex (ulpExp f y) (if full then 2 else 1)

end Sys2Proof.Machine
end

