-- ==== Sys2Proof/Machine/Flags.lean ====
section
/-! DEFINITION. Conditions and lane types: the conditions of CMP and VCMP (Tables 02.4, 02.6, R97), the element types
of the V slot (R51), and integer narrowing, wrapping and saturating (R51, R94). -/

namespace Sys2Proof.Machine

/-- The conditions of CMP on 64-bit scalars: 0 eq, 1 ne, 2 lt, 3 ge, 4 ltu, 5 geu. -/
def scalarCond (md : Nat) (a b : Word) : Bool :=
  match md with
  | 0 => a == b
  | 1 => a != b
  | 2 => BitVec.slt a b
  | 3 => !BitVec.slt a b
  | 4 => BitVec.ult a b
  | _ => !BitVec.ult a b

/-- The element type a MOD names (R51). -/
inductive Lane where
  | flt (f : FFmt)
  | int (w : Nat) (signed : Bool)
deriving DecidableEq, Repr

/-- MOD 0-6 (R51); 7 and 8 name the FP8 destinations of VCVT (R99). -/
def laneOf (md : Nat) : Lane :=
  match md with
  | 0 => .flt fp32
  | 1 => .flt fp16
  | 2 => .flt bf16
  | 3 => .int 32 true
  | 4 => .int 16 true
  | 5 => .int 8 true
  | 6 => .int 8 false
  | 7 => .flt fp8e4
  | _ => .flt fp8e5

def Lane.width : Lane → Nat
  | .flt f => f.width
  | .int w _ => w

/-- Lanes of a 2,048-bit register. -/
def Lane.count (l : Lane) : Nat := 2048 / l.width

/-- An integer lane's value. -/
def laneInt (w : Nat) (signed : Bool) (x : Nat) : Int := if signed then toSigned w x else (x % 2 ^ w : Nat)

/-- An integer clamped to the range of a type (R94). -/
def satInt (w : Nat) (signed : Bool) (z : Int) : Nat :=
  let lo : Int := if signed then -(2 ^ (w - 1) : Nat) else 0
  let hi : Int := if signed then (2 ^ (w - 1) : Nat) - 1 else (2 ^ w : Nat) - 1
  ofSigned w (if z < lo then lo else if hi < z then hi else z)

/-- A condition on an order and equality of two lanes. -/
def ordCond (c : Nat) (z : Int) : Bool :=
  match c with
  | 0 => z == 0
  | 1 => z != 0
  | 2 => decide (z < 0)
  | _ => decide (0 ≤ z)

/-- VCMP on one lane (R97): a float condition involving a NaN is false except ne; 4 and 5 compare unsigned. -/
def laneCond (l : Lane) (c a b : Nat) : Bool :=
  match l with
  | .flt f =>
    let x := f.decode a
    let y := f.decode b
    if x = .nan ∨ y = .nan then c == 1 else ordCond c (x.cmp y)
  | .int w sg =>
    if c = 4 then decide (a < b)
    else if c = 5 then decide (b ≤ a)
    else ordCond c (laneInt w sg a - laneInt w sg b)

end Sys2Proof.Machine
end

