-- ==== Sys2Proof/Machine/State.lean ====
section
/-! DEFINITION. The state of the block: every register, memory, queue, buffer, mode and pin the spec gives the
device, as plain data, and the queue of waiting commands. Registers have one home, `regs` (the register tables of
Machine/Regs.lean give each its address, access and reset value); memories have one home, `mem` and `poison`; the
other fields hold what the spec describes without a register (an engine's queue, a boundary in progress, a job). -/

namespace Sys2Proof.Machine

/-- Why a step can stop with a fault. No meaning of this model raises one: the constructor stands for a state the
block's description excludes. Safe. -/
inductive Fault where
  /-- Raised by no meaning. Safe. -/
  | unreachable
deriving DecidableEq, Repr

/-- Why a command can be refused. -/
inductive Refusal where
  /-- Answered by an arm of Dispatch.lean whose command has no meaning yet. Safe: nothing can be proved of it. -/
  | notModelled (mnemonic : String)
deriving DecidableEq, Repr

/-! ### Outputs and notifications -/

/-- What leaves the block, or reaches a party the model does not hold (Serac software, a die controller's firmware,
the host, the network). Kept as a list, newest first. -/
inductive Out where
  /-- Data returned for a read, with its poison bit (R8, R28). -/
  | readData (addr : Nat) (val : Word) (poison : Bool)
  /-- A read answered with Unsupported Request (R311). -/
  | unsupported (fn off : Nat)
  /-- An MSI-X message (R312). -/
  | msix (fn vec : Nat)
  /-- A notification inside the device: who is told, and of what. -/
  | notice (whom : String) (what : String) (arg : Nat)
  /-- A mailbox response (Table 11.6). -/
  | mailbox (tag : BitVec 32) (status : Nat)
  /-- A management answer (Table 12.9): status and result words. -/
  | mgmt (status : Nat) (words : List Word)
  /-- An SPDM or MCTP answer: its name and its bytes. -/
  | spdm (name : String) (bytes : List Byte)
  /-- A flit put on a port's wires (R283). -/
  | flit (port : Nat) (f : Flit)
  /-- A control message of the fabric manager's channel (R296, R297, R300). -/
  | fabric (what : String) (port : Nat) (arg : Nat)
  /-- A conduit message sent under its key (R299, R301). -/
  | conduitMsg (n : Nat) (m : CndMsg)
  /-- A pulse or toggle on TRIG or FSYNC outputs (R356). -/
  | pulse (fsync : Bool) (idx : Nat) (width : Nat) (toggle : Bool)
  /-- An Ethernet frame leaving a port (R368). -/
  | frame (port : Nat) (f : EthFrame)
  /-- A CAN FD message entering arbitration (R371). -/
  | can (n : Nat) (m : CanMsg)
  /-- A display line sent: head, line, black or not (R392). -/
  | line (head n : Nat) (black : Bool)
deriving DecidableEq, Repr

/-- An error report on its way to Serac and its owner (R31). -/
structure Report where
  lvl : Level
  unit : Nat
  cls : ErrClass
  src : Nat
  addr : Nat
  inj : Bool
deriving DecidableEq, Repr

/-- A memory request that waits (R20, R21, R174, R275). -/
structure MemReq where
  write : Bool
  who : Requester
  lab : Label
  addr : Nat
  val : Word
  poison : Bool
  a1 : Attempt
  a2 : Attempt
deriving DecidableEq, Repr

/-! ### Cores (02, 03, 04) -/

/-- A vector register with one poison bit per 64-bit word (R26). -/
structure VReg where
  v : BitVec 2048 := 0
  p : BitVec 32 := 0
deriving DecidableEq, Repr

/-- An accumulator tile: 64 × 32 cells in row order (a cell not listed is 0) and one poison bit per row (R26, R37). -/
structure Tile where
  cells : List (BitVec 32) := []
  p : BitVec 64 := 0
deriving DecidableEq, Repr

/-- The MXE mode (R37, R38, R88): format codes, accumulator type, scale-stream bases. -/
structure MxeMode where
  fa : Nat := 1
  fb : Nat := 1
  accInt : Bool := true
  scaleA : Option Nat := none
  scaleB : Option Nat := none
deriving DecidableEq, Repr

/-- A queued M, V or X slot with the operand values captured at dispatch (R42), and the number of its bundle since
the program began. -/
structure QEntry where
  slot : Word
  a : PWord
  b : PWord
  c : PWord
  seq : Nat
deriving DecidableEq, Repr

/-- Why the front end holds dispatch (R55, R60, R61, R68, R258). -/
inductive Hold where
  | none
  | sem (imm : BitVec 32) (keep : Bool)
  | barCore
  | barCl (imm : BitVec 32)
  | barWait (id : Nat)
  | checkpoint
  | halt
deriving DecidableEq, Repr

/-- One loop in progress (R48): first and last bundle of the body and the passes left after this one. -/
structure LoopFrame where
  first : Nat
  last : Nat
  left : Nat
deriving DecidableEq, Repr

/-- What a window job in progress waits for (R117, R118). -/
inductive WnWait where
  | run
  | ackTop
  | ackBottom
  | haloUp (row : Nat)
  | haloDown (row : Nat)
  | final
deriving DecidableEq, Repr

/-- A window job in progress (R115-R118): its descriptor, the next output row, what it waits for, which
acknowledgement waits have been granted, how many halo rows it has acknowledged in each slot, and which slots have
been settled at the end. -/
structure WnJob where
  desc : List Word
  row : Nat
  wait : WnWait
  topAcked : Bool
  bottomAcked : Bool
  upDone : Nat
  downDone : Nat
  upSettled : Bool
  downSettled : Bool
deriving DecidableEq, Repr

/-- What a core holds beside its registers of Table 02.10 and its stores. -/
structure CoreSt where
  s : Tab PWord := []
  a : Tab PWord := []
  v : Tab VReg := []
  t : Tab Tile := []
  mode : MxeMode := {}
  hold : Hold := .none
  loops : List LoopFrame := []
  qm : List QEntry := []
  qv : List QEntry := []
  qw : List QEntry := []
  qa : List QEntry := []
  qc : List QEntry := []
  wn : Option WnJob := none
  lanes : Tab Word := []
  ckNum : Nat := 0
  gap : Nat := 0
  bcast : Tab (List PWord) := []
  pairWaits : Tab Nat := []
  formats : Option (BitVec 32) := none
  pos : Nat := 0
  job : Option Nat := none
  label : Label := ⟨7, 31⟩
  inService : Bool := true
  stopped : Bool := false
  haltAt : Option Nat := none
  ckFinal : Bool := false
  ckAgreed : Bool := false
  bundles : Nat := 0
deriving DecidableEq, Repr

/-! ### Clusters and dies -/

/-- An arrival at a cluster barrier (R61): core, position, mask. -/
structure Arrival where
  core : Nat
  pos : Nat
  mask : Nat
deriving DecidableEq, Repr

/-- A checkpoint submission waiting in a twin comparator (R258, R259). -/
structure TwinSub where
  core : Nat
  num : Nat
  sig : Word
  gap : Bool
deriving DecidableEq, Repr

/-- What a cluster holds beside its registers and store. -/
structure ClusterSt where
  barriers : Tab (List Arrival) := []
  subs : List TwinSub := []
  inService : Bool := true
deriving DecidableEq, Repr

/-- What a die holds for its clock and memory (R16, R18, R20, R21, R275). -/
structure DieSt where
  cdivNext : BitVec 3 := 4
  cdivBusy : Bool := false
  slowDram : Bool := false
  rateNext : Bool := false
  linksClosed : Bool := false
  selfRefresh : Bool := false
  held : List MemReq := []
  inService : Bool := true
  fillWait : List MemReq := []
  avsTarget : Nat := 850
  avsNext : Option Nat := none
deriving DecidableEq, Repr

/-! ### Movers (07) -/

/-- A mover descriptor, decoded (Table 07.7). -/
structure Desc where
  src : Nat
  dst : Nat
  rowBytes : Nat
  rows : Nat
  srcPitch : Nat
  dstPitch : Nat
  next : Nat
  fill : Bool
  irq : Bool
  sigEn : Bool
  sigSem : Nat
deriving DecidableEq, Repr

/-- What a channel does beyond its registers (R194-R204): `fin` is a descriptor whose completion point is still to
come, `left` the bytes a paced descriptor has still to move, `sec` the secure attribute it started with (R337). -/
structure ChanSt where
  regMode : Bool := false
  fetch : Bool := false
  fin : Option Desc := none
  left : Nat := 0
  stop : Bool := false
  sec : Bool := false
  starter : Nat := 0
  trig : Bool := false
deriving DecidableEq, Repr

/-! ### Firn (05) -/

/-- A page-map entry (Table 05.5). STATE: 0 FREE, 1 RESERVED, 2 ACTIVE, 3 COPYING, 4 RETIRED, 5 UNPOOLED. -/
structure PageEnt where
  frame : Nat
  refcnt : Nat
  cls : Nat
  state : Nat
  owner : Nat
deriving DecidableEq, Repr

/-- A sequence-table entry (Table 05.6). STATE: 0 FREE, 1 PENDING, 2 ACTIVE, 3 LEAVING, 4 RELEASING. -/
structure SeqEnt where
  state : Nat := 0
  owner : Nat := 31
  mi : Nat := 0
  len : Nat := 0
  kvh : Nat := 0
  pcap : Nat := 0
  donor : Nat := 0
  donorEn : Bool := false
  plist : Nat := 0
  stepLast : Nat := 0
deriving DecidableEq, Repr

/-- A prefix-tree entry (Table 05.11). -/
structure TreeEnt where
  hash : Word
  parent : Nat
  root : Bool
  donor : Nat
  block : Nat
deriving DecidableEq, Repr

/-- A model instance as declared (R437) and bound to dies (R140): `dies` gives the die of each local shard. -/
structure MiDecl where
  image : Word
  owner : Nat
  cls : Nat
  heads : Nat
  byPos : Bool
  shards : Nat
  reserve : Nat
  localFirst : Nat
  localCount : Nat
  dies : List Nat
  drift : Nat
deriving DecidableEq, Repr

/-- A join entry of a step descriptor (Table 05.8), as offered or carried (R153). -/
structure JoinEnt where
  seq : Nat
  last : Bool
  p : Nat
  donor : Nat
  donorEn : Bool
  share : Nat
  plist : Nat
  pcap : Nat
deriving DecidableEq, Repr

/-- A FIRN_STEP waiting for its boundary (R147, R149); jobs with a serial below `stamp` belong to earlier steps. -/
structure StepCmd where
  pid : Nat
  mi : Nat
  addr : Nat
  stamp : Nat
deriving DecidableEq, Repr

/-- A copy-on-write of a boundary (R158): sequence, head, page index, old and new logical page. -/
structure CowCopy where
  seq : Nat
  head : Nat
  idx : Nat
  old : Nat
  new : Nat
deriving DecidableEq, Repr

/-- One entry of a boundary (R152, R153): its sequence, status (Table 05.9), growth (P of a join), LAST or not, join
or not. -/
structure StepRes where
  seq : Nat
  status : Nat
  g : Nat
  last : Bool
  join : Bool
deriving DecidableEq, Repr

/-- A translation-cache entry (R143). -/
structure TcEnt where
  die : Nat
  page : Nat
  frame : Nat
  state : Nat
  cls : Nat
  owner : Nat
deriving DecidableEq, Repr

/-- What keeps frames out of the pool (R138, R139): the watermark and each die's usable bytes when firmware wrote the
page map, and the runs of frames (first, count) it holds now. -/
structure FirnInit where
  wm : Nat
  usable : List Nat
  held : List (Nat × Nat)
deriving DecidableEq, Repr

/-- The page authority's tables: page-map entries that differ from how firmware wrote them, the model instance whose
reserve a FREE page stands in (R140), sequences, the prefix tree, carried joins by model instance, and pages whose
frame becomes FREE at a model instance's next boundary (R161). -/
structure FirnTabs where
  pages : Tab PageEnt := []
  resv : Tab Nat := []
  seqs : Tab SeqEnt := []
  tree : Tab TreeEnt := []
  carried : Tab (List JoinEnt) := []
  swaps : List (Nat × Nat) := []
deriving DecidableEq, Repr

/-- A boundary in progress (R149-R156): its command and addresses, the journal (the tables and the page-list words
before it), the results (the descriptor's entries in order, then the carried joins), the joins phase 3 judges (the
carried ones first), the copies, and how far the devices have agreed: 0 phase 2 is out, 1 phase 3 is out, 2 all. -/
structure Boundary where
  cmd : StepCmd
  resAddr : Nat
  batchAddr : Nat
  journal : FirnTabs
  slots : List (Nat × PWord)
  results : List StepRes
  joins : List JoinEnt
  carried : Nat
  copies : List CowCopy
  agreed : Nat
deriving DecidableEq, Repr

/-- The page authority (05). -/
structure FirnSt where
  init : Option FirnInit := none
  tabs : FirnTabs := {}
  mis : Tab MiDecl := []
  steps : Tab Nat := []
  queue : List StepCmd := []
  busy : Option Boundary := none
  tc : List TcEnt := []
deriving DecidableEq, Repr

/-! ### Images, jobs and long operations (02, 08) -/

/-- A kernel-table entry (Table 08.9). -/
structure Kern where
  entry : Nat
  drift : Nat
  live : Bool
  budget : Word
  wcetRem : Nat
deriving DecidableEq, Repr

/-- A run of device memory an image holds (R139, R227). -/
structure Region where
  base : Nat
  size : Nat
  wr : Bool
deriving DecidableEq, Repr

/-- A loaded image: its declaration (Table 02.13), its code, and its placement (R227): home clusters, cores, regions,
save areas (cluster, base, size), model instances, the cluster semaphores its code names, the Drift minima it added
(resource, units); `loading` while its MODEL_LOAD runs. -/
structure Image where
  id : Word
  owner : Nat
  fallback : Word
  formats : BitVec 32
  twin : Bool
  safety : Bool
  cpc : Nat
  clusters : Nat
  drift : Nat
  csBytes : Nat
  clBytes : Nat
  dramMin : Nat
  csMin : Nat
  deadline : Nat
  wcet : Nat
  code : List PWord
  home : List Nat
  cores : List Nat
  regions : List Region
  saves : List (Nat × Nat × Nat)
  mis : List Nat
  kernels : List Kern
  sems : List Nat
  minima : List (Nat × Nat)
  frames : List (Nat × Nat)
  loading : Bool
deriving DecidableEq, Repr

/-- What a job is doing. -/
inductive JobPhase where
  | waiting
  | prepared
  | running
  | preempted
  | switching
  | rerun
  | decide
deriving DecidableEq, Repr

/-- A job (R225-R237): `pid` its entry, `image` the image named, `run` the one that runs (its fall-back after a
switch), `cancels` the JOB_CANCELs that wait for it. -/
structure Job where
  serial : Nat
  pid : Nat
  ent : Ent
  image : Word
  run : Word
  args : List Word
  release : Nat
  deadline : Nat
  timed : Option Word
  missed : Bool
  started : Option Nat
  kernel : Nat
  phase : JobPhase
  reason : Nat
  cancels : List Nat
  cancelled : Bool
  fbAt : Option Nat
  rerunPair : Option (Nat × Nat)
  hadMismatch : Bool
  saved : Bool
deriving DecidableEq, Repr

/-- What a long operation does (Table 08.11). -/
inductive LongKind where
  | memFill (base len : Nat) (pattern : Word) (cls : Nat)
  | selftest (kind unit base len : Nat) (periodic : Bool)
  | fwStage (addr len slot : Nat)
  | scrub
  | kvCompact (mi pages : Nat)
  | modelLoad (image : Word) (addr dest bytes nonce : Nat) (key : BitVec 256)
deriving DecidableEq, Repr

/-- A long operation in flight (R239-R241): the operation, its progress, suspended or not, and a pending LONG_SUSPEND
or LONG_CANCEL. `own` marks the scrub firmware resumed on its own account (R325). -/
structure LongOp where
  pid : Nat
  ent : Ent
  kind : LongKind
  progress : Nat
  suspended : Bool
  suspendReqs : List Nat
  cancelReqs : List Nat
  cancelled : Bool
  own : Bool
deriving DecidableEq, Repr

/-- A ring-pair record (Table 08.2), and whether its fields are in range (R312). -/
structure RingRec where
  sqBase : Nat
  sqLog2 : Nat
  cqBase : Nat
  cqLog2 : Nat
  vector : Nat
  irqEn : Bool
  valid : Bool
deriving DecidableEq, Repr

/-- What a completion entry will say (Table 08.6). -/
structure Comp where
  status : Nat
  detail : Nat := 0
  kernel : Nat := 0xFFFF
  late : Bool := false
  results : List Word := []
deriving DecidableEq, Repr

/-- A consumed entry without a written completion (R218): its number in consumption order, its words, the Snowline
time of consumption, the serial of its job (0 for a command), the processor that serves it, whether its operation has
begun, and its completion while that is held back. -/
structure Pend where
  id : Nat
  ent : Ent
  opcode : Nat
  timed : Bool
  words : List Word
  time : Nat
  job : Nat
  proc : Nat
  started : Bool
  res : Option Comp
deriving DecidableEq, Repr

/-- What firmware keeps of one function (R214, R220, R238). -/
structure FnSt where
  recs : Tab RingRec := []
  recAddrs : List Nat := []
  version : Option (Nat × Nat) := none
  submitted : Word := 0
  completed : Word := 0
  refused : Word := 0
  fellBack : Word := 0
  bme : Bool := true
deriving DecidableEq, Repr

/-- The log ring's setup (R243). -/
structure LogCfg where
  base : Nat
  log2 : Nat
  mask : Word
deriving DecidableEq, Repr

/-- A log entry held while processor 3 restarts (Table 08.17). -/
structure LogRec where
  proc : Nat
  lvl : Nat
  point : Nat
  arg0 : Word
  arg1 : Word
  time : Word
deriving DecidableEq, Repr

/-- The firmware state of rings, jobs and long operations. `code` names the image in each core's instruction store;
`ctx` and `lastJob` the image and job whose context stands in each core store (key: the core) and each cluster store
(key: 1024 + the cluster). `cut` is the number the next consumed entry had when a processor's restart began. -/
structure RimeSt where
  fns : Tab FnSt := []
  passPos : Nat := 0
  pend : List Pend := []
  jobs : List Job := []
  images : List Image := []
  code : Tab Word := []
  ctx : Tab Word := []
  lastJob : Tab Nat := []
  nextSerial : Nat := 1
  nextId : Nat := 1
  longs : List LongOp := []
  logCfg : Option LogCfg := none
  logSeq : Nat := 0
  logHeld : List LogRec := []
  expiries : Tab (List Nat) := []
  cut : Tab Nat := []
  msixPend : List (Nat × Nat) := []
  msixLast : Tab Nat := []
deriving DecidableEq, Repr

/-! ### Serac (09) -/

/-- A mismatch the comparator reported (R259, R260): 0 VALUE, 1 ABSENT, 2 GAP. -/
structure Mismatch where
  cluster : Nat
  pair : Nat
  kind : Nat
deriving DecidableEq, Repr

/-- The run-time record of a supervised task (R266-R268): its current window and what fell in it. -/
structure TaskRt where
  live : Bool := false
  win : Nat := 0
  releases : List Nat := []
  completions : List Nat := []
  good : Nat := 0
deriving DecidableEq, Repr

/-- A self-test slice in progress (R271): its kind and unit, its operation, and the write-back controls before it. -/
structure Slice where
  kind : Nat
  unit : Nat
  pid : Nat
  saved : List (Nat × Word)
deriving DecidableEq, Repr

/-- An event Serac-A has to respond to (Table 09.7). -/
inductive FaultEv where
  | die (d src : Nat)
  | package (src : Nat)
  | class0
deriving DecidableEq, Repr

/-- Serac's state beside its registers: `passed` the units that have passed their self-test since they left service,
`out` the units out of service. -/
structure SeracSt where
  missed : Tab Nat := []
  lost : NatSet := []
  pend : List FaultEv := []
  restarting : NatSet := []
  devRestart : Bool := false
  dieHist : Tab (List Nat) := []
  stayOut : NatSet := []
  mism : List Mismatch := []
  tasks : Tab TaskRt := []
  slice : Option Slice := none
  passed : List ServUnit := []
  out : List ServUnit := []
  injWait : NatSet := []
  railCnt : Tab Nat := []
  waitGood : Tab Nat := []
  lastPass : Nat := 0
  slots : Nat := 0
deriving DecidableEq, Repr

/-! ### Baseth (10) -/

/-- A two-phase return in progress (R297): the returning lanes, a whole link or not, the deadline, the committed
instant, whether this end has sent its bond marker. -/
structure ReturnSt where
  lanes : Nat
  whole : Bool
  deadline : Word
  committed : Option Word := none
  marked : Bool := false
deriving DecidableEq, Repr

/-- A port's link state beside its registers (R284-R286, R293, R297): the next LSEQ to send, the last accepted, the
flit whose CRC failed, whether a NAK is out, unacknowledged flits, flits that wait, whether the port retrains, whether
it has gone down since the device start, the peer it had, and a return in progress. -/
structure PortSt where
  txSeq : Nat := 0
  rxLast : Nat := 4095
  failedOnce : Option Nat := none
  nakSent : Bool := false
  replay : List Flit := []
  vcq : List Flit := []
  training : Bool := false
  down : Bool := false
  peer : Word × Nat := (0, 0)
  ret : Option ReturnSt := none
deriving DecidableEq, Repr

/-- A Baseth key slot (R303): the key and the image it serves (0 the fabric key). -/
structure KeySlot where
  key : BitVec 256
  image : Word
deriving DecidableEq, Repr

/-- A sender conduit beside its registers (R296, R299): slots sent so far, slots sent and not acknowledged, and whether
an epoch holds it until they are. -/
structure CndSt where
  slot : Nat := 0
  unacked : Nat := 0
  hold : Bool := false
deriving DecidableEq, Repr

/-- The fabric plan (R287) of the settings and in force. -/
structure FabricPlan where
  enable : Bool := false
  dx : Nat := 1
  dy : Nat := 1
  dz : Nat := 1
  wx : Bool := false
  wy : Bool := false
  wz : Bool := false
  eligible : Bool := false
  anchor : Option Word := none
  keySlot : Nat := 0
deriving DecidableEq, Repr

/-- Baseth's state beside its registers. `plan` is the plan in force, `maps` holds the link map of each epoch parity, `next` the map to come with
its instant (R296); the manager and the backup by identity, and when the manager was last heard (R290). -/
structure BasethSt where
  ports : Tab PortSt := []
  maps : Tab (List LinkRec) := []
  next : Option (List LinkRec × Word) := none
  lastEpoch : Option Word := none
  fmUid : Word := 0
  backupUid : Word := 0
  fmHeard : Nat := 0
  keys : Tab KeySlot := []
  cnd : Tab CndSt := []
  noFm : Bool := true
  plan : FabricPlan := {}
deriving DecidableEq, Repr

/-! ### Host interface (11) -/

/-- An aperture entry (R310). -/
structure AptEnt where
  base : Nat := 0
  wr : Bool := false
  valid : Bool := false
deriving DecidableEq, Repr

/-- The host interface beside its registers: aperture entries (key fn × 64 + entry) and dirty logs (R320). -/
structure HostSt where
  apts : Tab AptEnt := []
  dirty : Tab Nat := []
deriving DecidableEq, Repr

/-! ### Worlds, enclaves, management (12) -/

/-- What a Rime processor saved on entering the monitor (R331). -/
structure SavedCtx where
  pc : Word
  priv : Nat
  world : World
deriving DecidableEq, Repr

/-- A Rime processor's registers and world, and the illegal-instruction exceptions it has taken on WRET (R331). -/
structure ProcSt where
  world : World := .normal
  pc : Word := 0
  priv : Nat := 3
  x : Tab Word := []
  f : Tab Word := []
  saved : Option SavedCtx := none
  illegal : Nat := 0
deriving DecidableEq, Repr

/-- An enclave beside ENCLn (R332-R334): its measurement so far, its entry, registers saved on an interrupt. -/
structure EnclSt where
  meas : BitVec 384 := 0
  entry : Nat := 0
  saved : Option (List (Nat × Word)) := none
  caller : Option SavedCtx := none
deriving DecidableEq, Repr

/-- An SPDM session (R343, R345): opened by KEY_EXCHANGE, authenticated by FINISH under a management root. -/
structure SesSt where
  opened : Bool
  auth : Bool
  root : Nat
  keyGen : Nat
deriving DecidableEq, Repr

/-- The security state beside its registers. -/
structure SecSt where
  procs : Tab ProcSt := []
  encl : Tab EnclSt := []
  ses : Tab SesSt := []
deriving DecidableEq, Repr

/-! ### Snowline, streams, gateway (13) -/

/-- A captured edge (R357). -/
structure CapEnt where
  ns : Word
  frac : Nat
  rising : Bool
deriving DecidableEq, Repr

/-- An entry of a kernel queue (R360). -/
structure TtqEnt where
  target : BitVec 32
  mask : BitVec 128
  late : Bool
deriving DecidableEq, Repr

/-- A stream entry of the plan (Table 13.4). -/
structure StreamCfg where
  dt : Nat
  inW : Nat
  inH : Nat
  cropX : Nat
  cropY : Nat
  cropW : Nat
  cropH : Nat
  scale : Nat
  outW : Nat
  outH : Nat
  fp16 : Bool
  image : Word
  ring : Nat
  pitch : Nat
  count : Nat
  rowPitch : Nat
  planePitch : Nat
  drift : Nat
deriving DecidableEq, Repr

/-- A stream at run time (R364, R365). `lines` holds the frame's received lines: pixels and CRC ok. -/
structure StreamRt where
  buf : Nat := 0
  open_ : Bool := false
  drop : Bool := false
  frame : Nat := 0
  lines : List (List Nat × Bool) := []
  extra : Bool := false
  crcErrs : Nat := 0
  sofNs : Word := 0
  sofFrac : Nat := 0
deriving DecidableEq, Repr

/-- A ring of buffers of an internal queue or a CAN controller (R369, R371). -/
structure RingSt where
  base : Nat
  pitch : Nat
  count : Nat
  next : Nat
  owner : Word
  drift : Nat
deriving DecidableEq, Repr

/-- A gate control list (R368): gate states with their intervals, the base time, the entry in force. -/
structure GateList where
  entries : List (Nat × Nat)
  base : Word
  cycle : Nat
  cur : Nat
  at_ : Word
deriving DecidableEq, Repr

/-- A learned address (R368). -/
structure FdbEnt where
  mac : BitVec 48
  vlan : Nat
  port : Nat
deriving DecidableEq, Repr

/-- An entry of the stream, time and gateway plan (R347). -/
inductive PlanEnt where
  | stream (s : Nat) (cfg : StreamCfg)
  | trig (fsync : Bool) (idx : Nat) (cfg : BitVec 32) (secure : Bool)
  | compare (u : Nat) (period : Nat) (width : Nat) (periodic : Bool) (trigs fsyncs : List Nat) (secure : Bool)
  | capture (c : Nat) (edge : Nat) (secure : Bool)
  | rxRing (q : Nat) (ring : RingSt)
  | txRing (q : Nat) (ring : RingSt)
  | canRing (n : Nat) (rx tx : RingSt) (filters : List (Nat × Nat)) (holdOff : Bool)
  | gate (port : Nat) (list : GateList)
  | vlan (vid : Nat) (ports : List Nat)
  | filter (streamId gate maxBytes : Nat)
  | frer (streamId history : Nat)
deriving DecidableEq, Repr

/-- A transmit timestamp (R370). -/
structure TsEnt where
  ns : Word
  frac : Nat
  frameId : Nat
deriving DecidableEq, Repr

/-- A CAN FD controller (R371). -/
structure CanSt where
  rx : Option RingSt := none
  tx : Option RingSt := none
  filters : List (Nat × Nat) := []
  busOff : Bool := false
  holdOff : Bool := false
  sending : Option (CanMsg × Nat) := none
deriving DecidableEq, Repr

/-- Snowline, compare, capture, kernel queues: what their registers do not hold. `sub` holds the 40 fraction bits,
`slewSub` the part of the current nanosecond of a slew that has been absorbed (in 2^-40 ns), `late` the units armed
with a target already reached, `claimed` the claimed resources of Table 13.9 (TRIG k: k, FSYNC: 16 + r, CAP: 32 + c,
compare units: 64 + u) with 1 for a secure entry. -/
structure SnowSt where
  sub : BitVec 40 := 0
  slewSub : Nat := 0
  late : NatSet := []
  caps : Tab (List CapEnt) := []
  ttq : Tab (List TtqEnt) := []
  claimed : Tab Nat := []
deriving DecidableEq, Repr

/-- The stream front end. -/
structure StreamSt where
  cfg : Tab StreamCfg := []
  rt : Tab StreamRt := []
deriving DecidableEq, Repr

/-- The gateway: learned addresses, VLANs, gates, stream filters (gate, largest frame), redundancy elimination
(history length, sequence numbers seen), queues, dropped frames, frames waiting at each egress port, the frame each
transmit queue sends with its buffer, timestamps, CAN. -/
structure GatewaySt where
  fdb : List FdbEnt := []
  vlans : Tab (List Nat) := []
  gates : Tab GateList := []
  filters : Tab (Nat × Nat) := []
  frer : Tab (Nat × List Nat) := []
  rx : Tab RingSt := []
  tx : Tab RingSt := []
  rxDropped : Tab Nat := []
  egress : Tab (List EthFrame) := []
  sending : Tab (EthFrame × Nat) := []
  tsq : Tab (List TsEnt) := []
  can : Tab CanSt := []
deriving DecidableEq, Repr

/-! ### Cornice (14) -/

/-- A window of the display plan (Table 14.1). -/
structure DispWin where
  base : Nat
  size : Nat
  wr : Bool
deriving DecidableEq, Repr

/-- A head of the display plan (Table 14.1). -/
structure HeadCfg where
  enable : Bool
  base : Nat
  alt : Nat
  pitch : Nat
  w : Nat
  h : Nat
deriving DecidableEq, Repr

/-- The display plan (Table 14.1). -/
structure DispPlan where
  owner : Nat
  mapOwner : Nat
  vector : Nat
  mapVector : Nat
  wins : List DispWin
  passRing : Nat × Nat
  mapRing : Nat × Nat
  eventRing : Nat × Nat
  mapEventRing : Nat × Nat
  drift : Nat
  heads : List HeadCfg
deriving DecidableEq, Repr

/-- A vertex as VEMIT gives it: clip x, y, z, w and attributes 0-3. -/
abbrev Vertex := List (BitVec 32)

/-- A primitive in sequence order (R378): sequence number, draw, three vertices. -/
structure Prim where
  seq : Nat
  draw : Nat
  verts : List Vertex
deriving DecidableEq, Repr

/-- A fragment batch (R377): its primitive, its pixels with coverage, barycentrics and depth. -/
structure Batch where
  seq : Nat
  draw : Nat
  pix : List (Nat × Nat × Bool)
  b1 : List (BitVec 32)
  b2 : List (BitVec 32)
  depth : List (BitVec 32)
deriving DecidableEq, Repr

/-- Where a pass stands. -/
inductive PassPhase where
  | binning
  | growWait
  | tiles
  | immediate
  | ending
deriving DecidableEq, Repr

/-- The pass in progress (R378-R384): its descriptor and draws (index base, count, ARG), the next vertex to fetch
(draw, index), the vertices emitted (key draw × 2^32 + index), the next primitive to assemble, the bins by tile, the
chunks held and the entries used, the primitive that waits for a chunk and when its BIN_GROW was written, the first
primitive left to immediate mode, the next tile, the batches of immediate mode. -/
structure PassSt where
  desc : List Word
  draws : List (Nat × Nat × Nat) := []
  phase : PassPhase
  status : Nat := 0
  start : Nat
  fetchAt : Nat × Nat := (0, 0)
  emitted : Tab Vertex := []
  asmAt : Nat × Nat := (0, 0)
  vertDone : Bool := false
  nextSeq : Nat := 0
  prims : List Prim := []
  bins : Tab (List Prim) := []
  chunks : List Nat := []
  used : Nat := 0
  growPrim : Option Prim := none
  grewAt : Option Nat := none
  firstImm : Option Nat := none
  tile : Nat := 0
  skipped : Nat := 0
  batches : List Batch := []
  told : Bool := false
deriving DecidableEq, Repr

/-- A render core beside its registers and store (R377, R379, R382): whether it runs the fragment program, the group of
vertices it fetched (draw, first index, count), the tile it owns with that tile's pixels (key target × 1024 + place)
and the batches still to come, its batch, and whether it holds or has released the batch's pixels. -/
structure RenderSt where
  frag : Bool := false
  group : Option (Nat × Nat × Nat) := none
  tile : Option Nat := none
  pix : Tab (BitVec 32 × Bool) := []
  work : List Batch := []
  batch : Option Batch := none
  acquired : Bool := false
  released : Bool := false
deriving DecidableEq, Repr

/-- A map job in progress (R389): its entry, its status, whether it has ended, whether its event is written. -/
structure MapSt where
  desc : List Word
  status : Nat := 0
  done : Bool := false
  told : Bool := false
deriving DecidableEq, Repr

/-- An event that waits for a free slot (R376). -/
structure EvtRec where
  map : Bool
  w0 : Word
  tag : Word
  time : Word
  data : Word
deriving DecidableEq, Repr

/-- A head (R390-R392). -/
structure HeadSt where
  next : Option (Nat × Word) := none
  altReq : Bool := false
  line : Nat := 0
deriving DecidableEq, Repr

/-- Cornice beside its registers. -/
structure CorniceSt where
  plan : Option DispPlan := none
  pass : Option PassSt := none
  map : Option MapSt := none
  rcs : Tab RenderSt := []
  heads : Tab HeadSt := []
  waiting : List EvtRec := []
deriving DecidableEq, Repr

/-! ### Bring-up, settings, records (15, 16) -/

/-- An entry of the retirement list (R183). -/
structure RetEnt where
  die : Nat
  stack : Nat
  pch : Nat
  time : Word
deriving DecidableEq, Repr

/-- The platform region (Table 15.4). -/
structure Platform where
  strong : Bool := false
  startMode : Nat := 0
  idleDelay : Nat := 0
  thermHi : Nat := 105
  pwrLimit : Nat := 560
  fwActLimit : Nat := 600
deriving DecidableEq, Repr

/-- A task entry as the safety region stores it: bytes 0x00-0x17 of Table 09.11. -/
structure TaskCfg where
  image : Word
  timing : Word
  limits : Word
deriving DecidableEq, Repr

/-- The safety region (Table 15.4). -/
structure SafetyCfg where
  epochMs : Nat := 100
  periodic : Bool := false
  tasks : List TaskCfg := []
deriving DecidableEq, Repr

/-- The copies of one region (R409): sequence number and content of the copy in use and of the older one. -/
structure NvmCopy where
  seq : Nat := 0
  bytes : List Byte := []
  older : List Byte := []
  oldHalf : Nat := 1
deriving DecidableEq, Repr

/-- A firmware slot in flash (R396, R406). -/
structure Slot where
  bytes : List Byte := []
  valid : Bool := false
  svn : Nat := 0
deriving DecidableEq, Repr

/-- The persistent settings (Table 15.4); `tried` says that the TRIAL slot has been booted once (R408), `pchPassed`
which pseudo-channels have passed their self-test since they retired (R186). -/
structure NvmSt where
  active : Nat := 0
  trial : Option Nat := none
  tried : Bool := false
  minSvn : Nat := 0
  wm : Nat := 0x010010000000
  tenant : Nat := 0
  tenantId : Word := 0
  roots : List (BitVec 384) := []
  retire : List RetEnt := []
  pchPassed : List (Nat × Nat) := []
  platform : Platform := {}
  safety : SafetyCfg := {}
  fabric : FabricPlan := {}
  stream : List PlanEnt := []
  display : Option DispPlan := none
  copies : Tab NvmCopy := []
deriving DecidableEq, Repr

/-- An event of the Icecore record (Table 15.5, 0x0A00). -/
structure IceEvt where
  kind : Nat
  unit : Nat
  src : Nat
  time : Word
deriving DecidableEq, Repr

/-- An Icecore record: the accumulators by record offset, the events, its sequence, time and SVN (Table 15.5). -/
structure IceRec where
  acc : Tab Nat := []
  events : List IceEvt := []
  seq : Nat := 0
  time : Word := 0
  svn : Nat := 0
deriving DecidableEq, Repr

/-- Where a start stands (Table 15.1, R397, R402). -/
inductive Boot where
  | held
  | started
  | recovery
  | ready
  | standby
deriving DecidableEq, Repr

/-- Power, settings, firmware slots, Icecore and Frost beside their registers. `force` is the mode in force that an
Idle device returns to (R401); `changing` the old and the new mode of a change; `unparking` the dies it unparks;
`emergHold` the hold of R404 on images without SAFETY; `was` the ECC mode and the interleave masks before Standby;
`ring` the records by slot, newest first, with the next slot; `clkCut` and `pwrCut` the cuts of Table 12.7 in force
(R338); `frost` the snapshot's registers and the dies (4 the hub) it holds. -/
structure PowerSt where
  boot : Boot := .held
  nvm : NvmSt := {}
  slots : Tab Slot := []
  actSlot : Option (Nat × Nat) := none
  changing : Option (Nat × Nat) := none
  unparking : NatSet := []
  emergHold : Bool := false
  force : Nat := 0
  wakeTimer : Nat := 0
  was : Nat × List Nat := (0, [])
  ice : IceRec := {}
  ring : List (Nat × IceRec) := []
  iceSlot : Nat := 0
  clkCut : NatSet := []
  pwrCut : NatSet := []
  frostTrig : Nat := 0
  frost : Tab Word := []
  frostDies : NatSet := []
deriving DecidableEq, Repr

/-- Levels of the input pins, true for high (R418, R421), and of the TRIG and FSYNC outputs. -/
structure PinSt where
  safePorst : Bool := true
  porst : Bool := true
  perst : Bool := true
  trst : Bool := true
  trig : Tab Bool := []
  fsync : Tab Bool := []
deriving DecidableEq, Repr

/-- Clocks (R15-R17) and the count of PCLK cycles since reset. -/
structure ClkSt where
  locked : Bool := false
  wasLocked : Bool := false
  pclk : Nat := 0
deriving DecidableEq, Repr

/-- The state of the block. `free` numbers the free values drawn so far (the model's own counter); `latch` holds the
latched high halves of R8. -/
structure State where
  pending : List Instr
  regs : Tab Word
  latch : Tab Word
  mem : List Host.Cell
  poison : NatSet
  cores : Tab CoreSt
  clusters : Tab ClusterSt
  dies : Tab DieSt
  clk : ClkSt
  chans : Tab ChanSt
  lines : Tab Nat
  credits : Tab Nat
  firn : FirnSt
  rime : RimeSt
  serac : SeracSt
  baseth : BasethSt
  host : HostSt
  sec : SecSt
  snow : SnowSt
  streams : StreamSt
  gateway : GatewaySt
  cornice : CorniceSt
  power : PowerSt
  pins : PinSt
  reports : List Report
  out : List Out
  free : Nat
deriving DecidableEq, Repr

/-- The block right after reset: power-on reset has just been taken, every register at its reset value (an unlisted
register reads its reset value of Machine/Regs.lean), every memory and queue empty. -/
def State.reset : State where
  pending := []
  regs := []
  latch := []
  mem := []
  poison := []
  cores := []
  clusters := []
  dies := []
  clk := {}
  chans := []
  lines := []
  credits := []
  firn := {}
  rime := {}
  serac := {}
  baseth := {}
  host := {}
  sec := {}
  snow := {}
  streams := {}
  gateway := {}
  cornice := {}
  power := {}
  pins := {}
  reports := []
  out := []
  free := 0

end Sys2Proof.Machine
end

