-- ==== Sys2Proof/Machine/Regs.lean ====
section
/-! DEFINITION. The register tables of the spec: where each block lies (Tables 06.1-06.3, 11.2), the address of every
named register, and for each register its width, its access codes as bit masks (Table 00.9) and its reset value. A
register's key in `State.regs` is its device physical address. The doorbell pages, MSI-X tables and mailbox lie in
PCI Express BARs, not in the device address space: their keys are model addresses from 2^48 on; DIE_CLK_CTL and
DIE_CLK_STATUS are named without an address (R18) and have model addresses too (log entry 6). -/

namespace Sys2Proof.Machine

/-- A register block (Tables 06.2, 06.3, 11.2). -/
inductive Blk where
  | hubId
  | sec
  | firn
  | hmov
  | drift
  | rime
  | serac
  | snow
  | stream
  | gateway
  | baseth
  | cornice
  | power
  | die
  | dctl
  | cluster
  | core
  | bar0
  | clkd
deriving DecidableEq, Repr

/-- The key of the first register of unit `u`'s block. -/
def Blk.base (b : Blk) (u : Nat) : Nat :=
  match b with
  | .hubId => 0
  | .sec => 0x8000
  | .firn => 0x10000
  | .hmov => 0x20000
  | .drift => 0x30000
  | .rime => 0x100000 + u * 0x10000
  | .serac => 0x200000
  | .snow => 0x300000
  | .stream => 0x400000
  | .gateway => 0x500000
  | .baseth => 0x600000
  | .cornice => 0x800000
  | .power => 0x900000
  | .die => 0x100000000 + u * 0x40000000
  | .dctl => 0x100010000 + u / 2 * 0x40000000 + u % 2 * 0x10000
  | .cluster => 0x100100000 + u / 4 * 0x40000000 + u % 4 * 0x10000
  | .core => 0x100200000 + u / 32 * 0x40000000 + u % 32 * 0x10000
  | .bar0 => 0x1000000000000 + u * 0x10000
  | .clkd => 0x1000001000000 + u * 0x10000

/-- The number of units that have such a block. -/
def Blk.units : Blk → Nat
  | .hubId => 1
  | .sec => 1
  | .firn => 1
  | .hmov => 1
  | .drift => 1
  | .rime => 8
  | .serac => 1
  | .snow => 1
  | .stream => 1
  | .gateway => 1
  | .baseth => 1
  | .cornice => 1
  | .power => 1
  | .die => 4
  | .dctl => 8
  | .cluster => 16
  | .core => 128
  | .bar0 => 17
  | .clkd => 4

/-- The register block a key lies in, with the unit and the offset. -/
def blkOf (a : Nat) : Option (Blk × Nat × Nat) :=
  if a < 0x8000 then some (.hubId, 0, a)
  else if a < 0x10000 then some (.sec, 0, a - 0x8000)
  else if a < 0x20000 then some (.firn, 0, a - 0x10000)
  else if a < 0x30000 then some (.hmov, 0, a - 0x20000)
  else if a < 0x40000 then some (.drift, 0, a - 0x30000)
  else if 0x100000 ≤ a ∧ a < 0x180000 then some (.rime, (a - 0x100000) / 0x10000, a % 0x10000)
  else if 0x200000 ≤ a ∧ a < 0x300000 then some (.serac, 0, a - 0x200000)
  else if 0x300000 ≤ a ∧ a < 0x400000 then some (.snow, 0, a - 0x300000)
  else if 0x400000 ≤ a ∧ a < 0x500000 then some (.stream, 0, a - 0x400000)
  else if 0x500000 ≤ a ∧ a < 0x600000 then some (.gateway, 0, a - 0x500000)
  else if 0x600000 ≤ a ∧ a < 0x700000 then some (.baseth, 0, a - 0x600000)
  else if 0x800000 ≤ a ∧ a < 0x900000 then some (.cornice, 0, a - 0x800000)
  else if 0x900000 ≤ a ∧ a < 0xA00000 then some (.power, 0, a - 0x900000)
  else if 0x100000000 ≤ a ∧ a < 0x200000000 then
    let d := (a - 0x100000000) / 0x40000000
    let x := (a - 0x100000000) % 0x40000000
    if x < 0x10000 then some (.die, d, x)
    else if x < 0x30000 then some (.dctl, 2 * d + (x - 0x10000) / 0x10000, x % 0x10000)
    else if 0x100000 ≤ x ∧ x < 0x140000 then some (.cluster, 4 * d + (x - 0x100000) / 0x10000, x % 0x10000)
    else if 0x200000 ≤ x ∧ x < 0x400000 then some (.core, 32 * d + (x - 0x200000) / 0x10000, x % 0x10000)
    else none
  else if 0x1000000000000 ≤ a ∧ a < 0x1000000110000 then some (.bar0, (a - 0x1000000000000) / 0x10000, a % 0x10000)
  else if 0x1000001000000 ≤ a ∧ a < 0x1000001040000 then some (.clkd, (a - 0x1000001000000) / 0x10000, a % 0x10000)
  else none

/-- A row of a register table: `count` registers from offset `off`, `stride` apart, of `width` bits; the bits a write
sets (`rw`), clears (`w1c`) and a read clears (`rc`); the offset of the block's event counter for its W1C flags. -/
structure RegRow where
  off : Nat
  stride : Nat
  count : Nat
  width : Nat
  rw : Word
  w1c : Word
  rc : Word
  ev : Option Nat
  reset : Word
deriving DecidableEq, Repr

/-- Registers of the hubId block. -/
def rows_hubId0 : List RegRow :=
  [ ⟨0, 0, 1, 32, 0, 0, 0, none, 0x5A170C54⟩  /- HUB_PART_ID: R6 Table 00.6 (00) -/,
    ⟨4, 0, 1, 32, 0, 0, 0, none, 0xA0⟩  /- HUB_STEPPING: R6 Table 00.6 (00) -/,
    ⟨8, 0, 1, 32, 0, 0, 0, none, 0⟩  /- HUB_UID_LO: R6 Table 00.6 (00) -/,
    ⟨0xC, 0, 1, 32, 0, 0, 0, none, 0⟩  /- HUB_UID_HI: R6 Table 00.6 (00) -/,
    ⟨0x100, 0, 1, 32, 0, 0x7F, 0, some 0x130, 0⟩  /- PKG_ERR_STATUS: R29 Table 01.6 (01) -/,
    ⟨0x108, 0, 1, 32, 0, 0, 0xFFFFFFFF, none, 0⟩  /- PKG_ERR_COUNT: R29 Table 01.6 (01) -/,
    ⟨0x110, 0, 1, 64, 0, 0, 0, none, 0⟩  /- PKG_ERR_FIRST_INFO: R29 Table 01.6 (01) -/,
    ⟨0x118, 0, 1, 64, 0, 0, 0, none, 0⟩  /- PKG_ERR_FIRST_ADDR: R29 Table 01.6 (01) -/,
    ⟨0x120, 0, 1, 32, 0x1FFFF, 0, 0, none, 0x10100⟩  /- PKG_ERR_CTL: R29 Table 01.6 (01) -/,
    ⟨0x128, 0, 1, 32, 0, 0, 0, none, 0⟩  /- PKG_ERR_INJECT: R29 Table 01.6 (01) -/,
    ⟨0x130, 0, 1, 32, 0, 0, 0, none, 0⟩  /- PKG_ERR_EVCNT: R29 Table 01.6 (01) -/ ]

/-- The register table of the hubId block. -/
def rows_hubId : List RegRow := rows_hubId0

/-- Registers of the sec block. -/
def rows_sec0 : List RegRow :=
  [ ⟨0, 0, 1, 64, 0x8000FFFFFC000000, 0, 0, none, 0x10010000000⟩  /- MEM_SECURE_WM: R346 Table 12.8 (12) -/,
    ⟨8, 0, 1, 32, 0, 0, 0, none, 0⟩  /- SEC_TENANT: R346 Table 12.8 (12) -/,
    ⟨0x10, 0, 1, 64, 0, 0, 0, none, 0⟩  /- SEC_TENANT_ID: R346 Table 12.8 (12) -/,
    ⟨0x18, 0, 1, 32, 0, 0, 0, none, 0⟩  /- SEC_DBG: R346 Table 12.8 (12) -/,
    ⟨0x20, 0, 1, 64, 0, 0, 0, none, 0⟩  /- SEC_CLAIM: R346 Table 12.8 (12) -/,
    ⟨0x28, 0, 1, 64, 0, 0, 0, none, 0⟩  /- SEC_PM_PEND: R346 Table 12.8 (12) -/,
    ⟨0x30, 0, 1, 64, 0, 0, 0, none, 0⟩  /- SEC_PM_KIND: R346 Table 12.8 (12) -/,
    ⟨0x38, 0, 1, 32, 0, 7, 0, some 0x40, 0⟩  /- SEC_STATUS: R346 Table 12.8 (12) -/,
    ⟨0x40, 0, 1, 32, 0, 0, 0, none, 0⟩  /- SEC_EVCNT: R346 Table 12.8 (12) -/,
    ⟨0x48, 0, 1, 64, 0, 0, 0, none, 0⟩  /- SEC_VIOL_ADDR: R346 Table 12.8 (12) -/,
    ⟨0x50, 0, 1, 64, 0xFFFFFFFFFFFF, 0, 0, none, 0⟩  /- SEC_PIN: R346 Table 12.8 (12) -/,
    ⟨0x100, 0x10, 8, 64, 0, 0, 0, none, 0⟩  /- ENCL_A: R346 Table 12.8 (12) -/,
    ⟨0x108, 0x10, 8, 64, 0, 0, 0, none, 0⟩  /- ENCL_B: R346 Table 12.8 (12) -/ ]

/-- The register table of the sec block. -/
def rows_sec : List RegRow := rows_sec0

/-- Registers of the firn block. -/
def rows_firn0 : List RegRow :=
  [ ⟨0, 0, 1, 32, 7, 0, 0, none, 0⟩  /- FIRN_CTL: R163 Table 05.12 (05) -/,
    ⟨8, 0, 1, 32, 0, 0x3F, 0, some 0x10, 0⟩  /- FIRN_STATUS: R163 Table 05.12 (05) -/,
    ⟨0x10, 0, 1, 32, 0, 0, 0, none, 0⟩  /- FIRN_EVCNT: R163 Table 05.12 (05) -/,
    ⟨0x18, 0, 1, 64, 0xFFFFFE000000, 0, 0, none, 0⟩  /- FIRN_PMAP_BASE: R163 Table 05.12 (05) -/,
    ⟨0x20, 0, 1, 64, 0xFFFFFFC00000, 0, 0, none, 0⟩  /- FIRN_STAB_BASE: R163 Table 05.12 (05) -/,
    ⟨0x28, 0, 1, 64, 0xFFFFFF000000, 0, 0, none, 0⟩  /- FIRN_TREE_BASE: R163 Table 05.12 (05) -/,
    ⟨0x30, 0, 1, 32, 0x7FFFFF, 0, 0, none, 0⟩  /- FIRN_LOW_MARK: R163 Table 05.12 (05) -/,
    ⟨0x38, 0, 1, 64, 0, 0, 0, none, 0⟩  /- FIRN_STEPS: R163 Table 05.12 (05) -/,
    ⟨0x40, 8, 4, 32, 0, 0, 0, none, 0⟩  /- FIRN_FREE: R163 Table 05.12 (05) -/,
    ⟨0x60, 0, 1, 32, 0, 0, 0, none, 0⟩  /- FIRN_RETIRED: R163 Table 05.12 (05) -/,
    ⟨0x68, 0, 1, 32, 0, 0, 0xFFFFFFFF, none, 0⟩  /- FIRN_COW: R163 Table 05.12 (05) -/,
    ⟨0x70, 8, 4, 32, 0, 0, 0xFFFFFFFF, none, 0⟩  /- FIRN_TC_MISS: R163 Table 05.12 (05) -/ ]

/-- The register table of the firn block. -/
def rows_firn : List RegRow := rows_firn0

/-- Registers of the hmov block. -/
def rows_hmov0 : List RegRow :=
  [ ⟨0x100, 0x40, 32, 64, 0xFFFFFFFFFFFF, 0, 0, none, 0⟩  /- MV_SRC: R190 Table 07.2 (07) -/,
    ⟨0x108, 0x40, 32, 64, 0xFFFFFFFFFFFF, 0, 0, none, 0⟩  /- MV_DST: R190 Table 07.2 (07) -/,
    ⟨0x110, 0x40, 32, 32, 0xFFFFFFFF, 0, 0, none, 0⟩  /- MV_COUNT: R190 Table 07.2 (07) -/,
    ⟨0x118, 0x40, 32, 32, 0xFFFFFFFC, 0, 0, none, 0x3E000000⟩  /- MV_CTL: R190 Table 07.2 (07) -/,
    ⟨0x120, 0x40, 32, 64, 0xFFFFFFFFFFFF, 0, 0, none, 0⟩  /- MV_DESC: R190 Table 07.2 (07) -/,
    ⟨0x128, 0x40, 32, 64, 0xFFFFFFFFFFFF, 0, 0, none, 0⟩  /- MV_HEAD: R190 Table 07.2 (07) -/,
    ⟨0x130, 0x40, 32, 32, 0, 0x7C, 0, some 0x138, 0⟩  /- MV_STATUS: R190 Table 07.2 (07) -/,
    ⟨0x138, 0x40, 32, 32, 0, 0, 0, none, 0⟩  /- MV_EVCNT: R190 Table 07.2 (07) -/ ]

/-- The register table of the hmov block. -/
def rows_hmov : List RegRow := rows_hmov0

/-- Registers of the drift block. -/
def rows_drift0 : List RegRow :=
  [ ⟨0, 0, 1, 32, 1, 0, 0, none, 0⟩  /- DRIFT_CTL: R208 Table 07.11 (07) -/,
    ⟨8, 0, 1, 32, 0, 0xB, 0, some 0x10, 0⟩  /- DRIFT_STATUS: R208 Table 07.11 (07) -/,
    ⟨0x10, 0, 1, 32, 0, 0, 0, none, 0⟩  /- DRIFT_EVCNT: R208 Table 07.11 (07) -/,
    ⟨0x18, 0, 1, 32, 0, 0, 0, none, 0⟩  /- DRIFT_DERATED_MAP: R208 Table 07.11 (07) -/,
    ⟨0x20, 4, 8, 32, 0xFF, 0, 0, none, 1⟩  /- DRIFT_WEIGHT: R208 Table 07.11 (07) -/,
    ⟨0x100, 4, 192, 32, 0xFFFF, 0, 0, none, 0⟩  /- DRIFT_SHARE: R208 Table 07.11 (07) -/,
    ⟨0x400, 4, 8, 32, 0, 0, 0, none, 0x1B332000⟩  /- DRIFT_CAP: R208 Table 07.11 (07) -/,
    ⟨0x420, 4, 16, 32, 0, 0, 0, none, 0x44005000⟩  /- DRIFT_CAP_CLU: R208 Table 07.11 (07) -/ ]

/-- The register table of the drift block. -/
def rows_drift : List RegRow := rows_drift0

/-- Registers of the rime block. -/
def rows_rime0 : List RegRow :=
  [ ⟨0, 0, 1, 32, 0, 4, 0, some 8, 1⟩  /- RIME_STATUS: R244 Table 08.14 (08) -/,
    ⟨8, 0, 1, 32, 0, 0, 0, none, 0⟩  /- RIME_EVCNT: R244 Table 08.14 (08) -/,
    ⟨0x10, 0, 1, 32, 0x80FFFFFF, 0, 0, none, 0x2710⟩  /- RIME_WDT_CTL: R244 Table 08.14 (08) -/,
    ⟨0x18, 0, 1, 32, 0, 0, 0, none, 0⟩  /- RIME_WDT_KICK: R244 Table 08.14 (08) -/,
    ⟨0x20, 0, 1, 32, 0, 0, 0, none, 0x2710⟩  /- RIME_WDT_LEFT: R244 Table 08.14 (08) -/,
    ⟨0x28, 0, 1, 32, 0, 0, 0, none, 0⟩  /- RIME_RESTARTS: R244 Table 08.14 (08) -/,
    ⟨0x30, 0, 1, 64, 0, 0, 0, none, 0⟩  /- RIME_LAST_PC: R244 Table 08.14 (08) -/,
    ⟨0x38, 0, 1, 32, 0, 0, 0, none, 0⟩  /- RIME_EPOCH: R244 Table 08.14 (08) -/ ]

/-- The register table of the rime block. -/
def rows_rime : List RegRow := rows_rime0

/-- Registers of the serac block, part 1. -/
def rows_serac0 : List RegRow :=
  [ ⟨0, 0, 1, 32, 0, 0x1FE, 0, some 8, 0⟩  /- SERAC_STATUS: R279 Table 09.10 (09) -/,
    ⟨8, 0, 1, 32, 0, 0, 0, none, 0⟩  /- SERAC_EVCNT: R279 Table 09.10 (09) -/,
    ⟨0x10, 0, 1, 32, 0, 0, 0, none, 0x80000001⟩  /- SERAC_HOLD: R279 Table 09.10 (09) -/,
    ⟨0x18, 0, 1, 32, 0, 0, 0xFFFFFFFF, none, 0⟩  /- SERAC_TWIN_MISMATCH: R279 Table 09.10 (09) -/,
    ⟨0x20, 0, 1, 32, 0, 0, 0xFFFFFFFF, none, 0⟩  /- SERAC_TWIN_TRANSIENT: R279 Table 09.10 (09) -/,
    ⟨0x28, 0, 1, 64, 0, 0, 0, none, 0⟩  /- SERAC_PAIR_RETIRED: R279 Table 09.10 (09) -/,
    ⟨0x30, 0, 1, 64, 0, 0, 0, none, 0⟩  /- SERAC_PAIR_SUSPECT: R279 Table 09.10 (09) -/,
    ⟨0x38, 0, 1, 32, 0, 0, 0xFFFFFFFF, none, 0⟩  /- SERAC_ST_DEFER: R279 Table 09.10 (09) -/,
    ⟨0x40, 0, 1, 32, 0, 0, 0xFFFFFFFF, none, 0⟩  /- SERAC_ST_ABANDON: R279 Table 09.10 (09) -/,
    ⟨0x48, 0, 1, 32, 0, 0, 0, none, 0⟩  /- SERAC_ST_AGE: R279 Table 09.10 (09) -/,
    ⟨0x50, 0, 1, 32, 0, 0, 0, none, 0⟩  /- SERAC_INJ_RESULT: R279 Table 09.10 (09) -/,
    ⟨0x58, 0, 1, 64, 0, 0, 0, none, 0⟩  /- SERAC_LAST_RESTART: R279 Table 09.10 (09) -/,
    ⟨0x60, 0, 1, 32, 0, 0, 0, none, 0x64⟩  /- SERAC_CFG: R279 Table 09.10 (09) -/,
    ⟨0x100, 0x20, 32, 64, 0, 0, 0, none, 0⟩  /- TASK_IMAGE: R265 Table 09.11 (09) -/,
    ⟨0x108, 0x20, 32, 64, 0, 0, 0, none, 0⟩  /- TASK_TIMING: R265 Table 09.11 (09) -/,
    ⟨0x110, 0x20, 32, 64, 0, 0, 0, none, 0⟩  /- TASK_LIMITS: R265 Table 09.11 (09) -/ ]

/-- Registers of the serac block, part 2. -/
def rows_serac1 : List RegRow :=
  [ ⟨0x118, 0x20, 32, 64, 0, 0x7000000, 0, some 8, 0⟩  /- TASK_STATE: R265 Table 09.11 (09) -/ ]

/-- The register table of the serac block. -/
def rows_serac : List RegRow := rows_serac0 ++ rows_serac1

/-- Registers of the snow block, part 1. -/
def rows_snow0 : List RegRow :=
  [ ⟨0, 0, 1, 32, 1, 0, 0, none, 0⟩  /- SNOW_CTL: R373 Table 13.10 (13) -/,
    ⟨8, 0, 1, 32, 0, 0x1C, 0, some 0x10, 0⟩  /- SNOW_STATUS: R373 Table 13.10 (13) -/,
    ⟨0x10, 0, 1, 32, 0, 0, 0, none, 0⟩  /- SNOW_EVCNT: R373 Table 13.10 (13) -/,
    ⟨0x18, 0, 1, 64, 0, 0, 0, none, 0⟩  /- SNOW_NS: R373 Table 13.10 (13) -/,
    ⟨0x20, 0, 1, 32, 0, 0, 0, none, 0⟩  /- SNOW_FRAC: R373 Table 13.10 (13) -/,
    ⟨0x28, 0, 1, 64, 0xFFFFFFFFFFFF, 0, 0, none, 0x40000000000⟩  /- SNOW_INCR: R373 Table 13.10 (13) -/,
    ⟨0x30, 0, 1, 64, 0, 0, 0, none, 0⟩  /- SNOW_STEP: R373 Table 13.10 (13) -/,
    ⟨0x38, 0, 1, 64, 0xFFFFFFFFFFFFFFFF, 0, 0, none, 0⟩  /- SNOW_SLEW: R373 Table 13.10 (13) -/,
    ⟨0x40, 0, 1, 32, 0, 0, 0, none, 0⟩  /- PLAN_STATUS: R373 Table 13.10 (13) -/,
    ⟨0x100, 0x20, 16, 32, 0xFFFF04, 0, 0, none, 0x100⟩  /- CMP_CTL: R373 Table 13.10 (13) -/,
    ⟨0x108, 0x20, 16, 64, 0xFFFFFFFFFFFFFFFF, 0, 0, none, 0⟩  /- CMP_TARGET: R373 Table 13.10 (13) -/,
    ⟨0x110, 0x20, 16, 32, 0, 6, 0, some 0x10, 0⟩  /- CMP_STATUS: R373 Table 13.10 (13) -/,
    ⟨0x118, 0x20, 16, 32, 0, 0, 0, none, 0⟩  /- CMP_LAST: R373 Table 13.10 (13) -/,
    ⟨0x300, 8, 16, 32, 0xFF, 0, 0, none, 0⟩  /- TRIG_CFG: R373 Table 13.10 (13) -/,
    ⟨0x380, 8, 16, 32, 0xFF, 0, 0, none, 0⟩  /- FSYNC_CFG: R373 Table 13.10 (13) -/,
    ⟨0x400, 0x20, 8, 32, 3, 0, 0, none, 0⟩  /- CAP_CFG: R373 Table 13.10 (13) -/ ]

/-- Registers of the snow block, part 2. -/
def rows_snow1 : List RegRow :=
  [ ⟨0x408, 0x20, 8, 64, 0, 0, 0, none, 0⟩  /- CAP_TIME: R373 Table 13.10 (13) -/,
    ⟨0x410, 0x20, 8, 32, 0, 0, 0xFFFFFFFF, none, 0⟩  /- CAP_INFO: R373 Table 13.10 (13) -/,
    ⟨0x418, 0x20, 8, 32, 0, 0, 0xFFFFFFFF, none, 0⟩  /- CAP_OVF: R373 Table 13.10 (13) -/,
    ⟨0x600, 0x40, 4, 32, 0xFFFFFFFF, 0, 0, none, 0⟩  /- TTQ_TARGET: R373 Table 13.10 (13) -/,
    ⟨0x608, 0x40, 4, 32, 0xFFFFFFFF, 0, 0, none, 0⟩  /- TTQ_MASK0: R373 Table 13.10 (13) -/,
    ⟨0x610, 0x40, 4, 32, 0xFFFFFFFF, 0, 0, none, 0⟩  /- TTQ_MASK1: R373 Table 13.10 (13) -/,
    ⟨0x618, 0x40, 4, 32, 0xFFFFFFFF, 0, 0, none, 0⟩  /- TTQ_MASK2: R373 Table 13.10 (13) -/,
    ⟨0x620, 0x40, 4, 32, 0xFFFFFFFF, 0, 0, none, 0⟩  /- TTQ_MASK3: R373 Table 13.10 (13) -/,
    ⟨0x628, 0x40, 4, 32, 0, 0, 0, none, 0⟩  /- TTQ_CTL: R373 Table 13.10 (13) -/,
    ⟨0x630, 0x40, 4, 32, 0, 0x700, 0, some 0x10, 0⟩  /- TTQ_STATUS: R373 Table 13.10 (13) -/ ]

/-- The register table of the snow block. -/
def rows_snow : List RegRow := rows_snow0 ++ rows_snow1

/-- Registers of the stream block. -/
def rows_stream0 : List RegRow :=
  [ ⟨0, 0, 1, 32, 0xFFFF, 0, 0, none, 0⟩  /- STR_CTL: R366 Table 13.6 (13) -/,
    ⟨8, 0, 1, 32, 0, 0, 0, none, 0⟩  /- STR_EVCNT: R366 Table 13.6 (13) -/,
    ⟨0x100, 0x10, 16, 32, 0, 0, 0, none, 0⟩  /- RX_STATUS: R366 Table 13.6 (13) -/,
    ⟨0x108, 0x10, 16, 32, 0, 0, 0xFFFFFFFF, none, 0⟩  /- RX_HDR_ERR: R366 Table 13.6 (13) -/,
    ⟨0x1000, 0x20, 128, 32, 0, 0x1E, 0, some 8, 0⟩  /- STR_STATUS: R366 Table 13.6 (13) -/,
    ⟨0x1008, 0x20, 128, 32, 0, 0, 0, none, 0⟩  /- STR_FRAMES: R366 Table 13.6 (13) -/,
    ⟨0x1010, 0x20, 128, 32, 0, 0, 0xFFFFFFFF, none, 0⟩  /- STR_DROPPED: R366 Table 13.6 (13) -/,
    ⟨0x1018, 0x20, 128, 32, 0, 0, 0xFFFFFFFF, none, 0⟩  /- STR_CRC: R366 Table 13.6 (13) -/ ]

/-- The register table of the stream block. -/
def rows_stream : List RegRow := rows_stream0

/-- Registers of the gateway block. -/
def rows_gateway0 : List RegRow :=
  [ ⟨0x800, 0x20, 13, 64, 0, 0, 0, none, 0⟩  /- TSQ_TIME: R370 (13) -/,
    ⟨0x808, 0x20, 13, 64, 0, 0, 0x1FFFFFFFF, none, 0⟩  /- TSQ_INFO: R370 (13) -/,
    ⟨0x810, 0x20, 13, 32, 0, 0, 0, none, 0⟩  /- TSQ_COUNT: R370 (13) -/,
    ⟨0x818, 0x20, 13, 32, 0, 0, 0xFFFFFFFF, none, 0⟩  /- TSQ_OVF: R370 (13) -/ ]

/-- The register table of the gateway block. -/
def rows_gateway : List RegRow := rows_gateway0

/-- Registers of the baseth block, part 1. -/
def rows_baseth0 : List RegRow :=
  [ ⟨0, 0, 1, 32, 3, 0, 0, none, 0⟩  /- BASETH_CTL: R306 Table 10.5 (10) -/,
    ⟨8, 0, 1, 32, 0, 0x78, 0, some 0x10, 0⟩  /- BASETH_STATUS: R306 Table 10.5 (10) -/,
    ⟨0x10, 0, 1, 32, 0, 0, 0, none, 0⟩  /- BASETH_EVCNT: R306 Table 10.5 (10) -/,
    ⟨0x18, 0, 1, 32, 0, 0, 0, none, 0⟩  /- BASETH_COORD: R306 Table 10.5 (10) -/,
    ⟨0x20, 0, 1, 32, 0, 0, 0, none, 0⟩  /- BASETH_EPOCH: R306 Table 10.5 (10) -/,
    ⟨0x28, 0, 1, 32, 0, 0, 0, none, 0⟩  /- BASETH_FM: R306 Table 10.5 (10) -/,
    ⟨0x100, 0x40, 8, 32, 7, 0, 0, none, 1⟩  /- PORT_CTL: R306 Table 10.5 (10) -/,
    ⟨0x108, 0x40, 8, 32, 0, 0xC00, 0, some 0x130, 0⟩  /- PORT_STATUS: R306 Table 10.5 (10) -/,
    ⟨0x110, 0x40, 8, 64, 0, 0, 0, none, 0⟩  /- PORT_PEER: R306 Table 10.5 (10) -/,
    ⟨0x118, 0x40, 8, 32, 0, 0, 0, none, 0⟩  /- PORT_PEER_PORT: R306 Table 10.5 (10) -/,
    ⟨0x120, 0x40, 8, 32, 0, 0, 0xFFFFFFFF, none, 0⟩  /- PORT_RETRIES: R306 Table 10.5 (10) -/,
    ⟨0x128, 0x40, 8, 32, 0, 0, 0xFFFFFFFF, none, 0⟩  /- PORT_FEC: R306 Table 10.5 (10) -/,
    ⟨0x130, 0x40, 8, 32, 0, 0, 0, none, 0⟩  /- PORT_EVCNT: R306 Table 10.5 (10) -/,
    ⟨0x1000, 0x40, 64, 64, 0xFFFFFFFFF000, 0, 0, none, 0⟩  /- CND_LOCAL: R298 Table 10.4 (10) -/,
    ⟨0x1008, 0x40, 64, 64, 0xFFFFFFFFFFFF, 0, 0, none, 0⟩  /- CND_REMOTE: R298 Table 10.4 (10) -/,
    ⟨0x1010, 0x40, 64, 32, 0xFFFFFFFF, 0, 0, none, 0⟩  /- CND_SLOT: R298 Table 10.4 (10) -/ ]

/-- Registers of the baseth block, part 2. -/
def rows_baseth1 : List RegRow :=
  [ ⟨0x1018, 0x40, 64, 32, 0x1FFFFFFF, 0, 0, none, 0⟩  /- CND_PEER: R298 Table 10.4 (10) -/,
    ⟨0x1020, 0x40, 64, 32, 0x3FFFFF, 0, 0, none, 0⟩  /- CND_CTL: R298 Table 10.4 (10) -/,
    ⟨0x1028, 0x40, 64, 32, 0, 2, 0, some 0x1038, 0⟩  /- CND_STATUS: R298 Table 10.4 (10) -/,
    ⟨0x1030, 0x40, 64, 64, 0, 0, 0, none, 0⟩  /- CND_COUNT: R298 Table 10.4 (10) -/,
    ⟨0x1038, 0x40, 64, 32, 0, 0, 0, none, 0⟩  /- CND_EVCNT: R298 Table 10.4 (10) -/ ]

/-- The register table of the baseth block. -/
def rows_baseth : List RegRow := rows_baseth0 ++ rows_baseth1

/-- Registers of the cornice block. -/
def rows_cornice0 : List RegRow :=
  [ ⟨0, 0, 1, 32, 1, 0, 0, none, 0⟩  /- CORNICE_CTL: R394 Table 14.7 (14) -/,
    ⟨8, 0, 1, 32, 0, 0x3E, 0, some 0x10, 0⟩  /- CORNICE_STATUS: R394 Table 14.7 (14) -/,
    ⟨0x10, 0, 1, 32, 0, 0, 0, none, 0⟩  /- CORNICE_EVCNT: R394 Table 14.7 (14) -/,
    ⟨0x18, 0, 1, 64, 0, 0, 0, none, 0⟩  /- CORNICE_PASSES: R394 Table 14.7 (14) -/,
    ⟨0x20, 0, 1, 32, 0, 0, 0xFFFFFFFF, none, 0⟩  /- CORNICE_SKIPPED: R394 Table 14.7 (14) -/,
    ⟨0x28, 0, 1, 32, 0, 0, 0xFFFFFFFF, none, 0⟩  /- CORNICE_GROWS: R394 Table 14.7 (14) -/,
    ⟨0x30, 0, 1, 64, 0, 0, 0xFFFFFFFFFFFFFFFF, none, 0⟩  /- CORNICE_RAYS: R394 Table 14.7 (14) -/,
    ⟨0x100, 0x20, 4, 32, 0, 0, 0, none, 0⟩  /- HEAD_STATUS: R394 Table 14.7 (14) -/,
    ⟨0x108, 0x20, 4, 64, 0, 0, 0, none, 0⟩  /- HEAD_SCAN: R394 Table 14.7 (14) -/,
    ⟨0x110, 0x20, 4, 32, 0, 0, 0, none, 0⟩  /- HEAD_FRAMES: R394 Table 14.7 (14) -/,
    ⟨0x118, 0x20, 4, 32, 0, 0, 0xFFFFFFFF, none, 0⟩  /- HEAD_UNDERRUN: R394 Table 14.7 (14) -/ ]

/-- The register table of the cornice block. -/
def rows_cornice : List RegRow := rows_cornice0

/-- Registers of the power block, part 1. -/
def rows_power0 : List RegRow :=
  [ ⟨0, 0, 1, 32, 0, 0, 0, none, 0⟩  /- PWR_MODE: R417 Table 15.6 (15) -/,
    ⟨8, 0, 1, 32, 0, 0x1C, 0, some 0x10, 0⟩  /- PWR_STATUS: R417 Table 15.6 (15) -/,
    ⟨0x10, 0, 1, 32, 0, 0, 0, none, 0⟩  /- PWR_EVCNT: R417 Table 15.6 (15) -/,
    ⟨0x18, 0, 1, 64, 0xFFFFFFF, 0, 0, none, 0⟩  /- PWR_CLK_OFF: R417 Table 15.6 (15) -/,
    ⟨0x20, 0, 1, 64, 0xFFFFFFF, 0, 0, none, 0⟩  /- PWR_PWR_OFF: R417 Table 15.6 (15) -/,
    ⟨0x28, 0, 1, 64, 0, 0, 0, none, 0⟩  /- PWR_TJ: R417 Table 15.6 (15) -/,
    ⟨0x30, 0, 1, 32, 0, 0, 0, none, 0⟩  /- PWR_PKG: R417 Table 15.6 (15) -/,
    ⟨0x100, 0, 1, 32, 0, 0xE, 0, some 0x108, 0⟩  /- NVM_STATUS: R417 Table 15.6 (15) -/,
    ⟨0x108, 0, 1, 32, 0, 0, 0, none, 0⟩  /- NVM_EVCNT: R417 Table 15.6 (15) -/,
    ⟨0x200, 0, 1, 32, 0, 0x1C0, 0, some 0x208, 0⟩  /- FW_STATUS: R417 Table 15.6 (15) -/,
    ⟨0x208, 0, 1, 32, 0, 0, 0, none, 0⟩  /- FW_EVCNT: R417 Table 15.6 (15) -/,
    ⟨0x210, 0, 1, 32, 0, 0, 0, none, 0⟩  /- FW_MIN_SVN: R417 Table 15.6 (15) -/,
    ⟨0x300, 0, 1, 32, 0, 3, 0, some 0x308, 0⟩  /- ICE_STATUS: R417 Table 15.6 (15) -/,
    ⟨0x308, 0, 1, 32, 0, 0, 0, none, 0⟩  /- ICE_EVCNT: R417 Table 15.6 (15) -/,
    ⟨0x310, 0, 1, 32, 0, 0, 0, none, 0⟩  /- ICE_SEQ: R417 Table 15.6 (15) -/,
    ⟨0x318, 0, 1, 64, 0, 0, 0, none, 0⟩  /- ICE_POH: R417 Table 15.6 (15) -/ ]

/-- Registers of the power block, part 2. -/
def rows_power1 : List RegRow :=
  [ ⟨0x380, 0, 1, 32, 0x3F01FE, 0, 0, none, 0⟩  /- FROST_CTL: R417 Table 15.6 (15) -/,
    ⟨0x388, 0, 1, 32, 0, 0x40, 0, some 0x3A0, 0⟩  /- FROST_STATUS: R417 Table 15.6 (15) -/,
    ⟨0x390, 0, 1, 64, 0, 0, 0, none, 0⟩  /- FROST_TIME: R417 Table 15.6 (15) -/,
    ⟨0x398, 0, 1, 32, 0, 0, 0, none, 0⟩  /- FROST_TRIG: R417 Table 15.6 (15) -/,
    ⟨0x3A0, 0, 1, 32, 0, 0, 0, none, 0⟩  /- FROST_EVCNT: R417 Table 15.6 (15) -/,
    ⟨0x400, 4, 128, 32, 0, 0, 0, none, 0⟩  /- NVM_SECTOR_ERASES: R417 Table 15.6 (15) -/ ]

/-- The register table of the power block. -/
def rows_power : List RegRow := rows_power0 ++ rows_power1

/-- Registers of the die block. -/
def rows_die0 : List RegRow :=
  [ ⟨0x100, 0, 1, 32, 0, 0x7F, 0, some 0x130, 0⟩  /- DIE_ERR_STATUS: R29 Table 01.6 (01) -/,
    ⟨0x108, 0, 1, 32, 0, 0, 0xFFFFFFFF, none, 0⟩  /- DIE_ERR_COUNT: R29 Table 01.6 (01) -/,
    ⟨0x110, 0, 1, 64, 0, 0, 0, none, 0⟩  /- DIE_ERR_FIRST_INFO: R29 Table 01.6 (01) -/,
    ⟨0x118, 0, 1, 64, 0, 0, 0, none, 0⟩  /- DIE_ERR_FIRST_ADDR: R29 Table 01.6 (01) -/,
    ⟨0x120, 0, 1, 32, 0x1FFFF, 0, 0, none, 0x10100⟩  /- DIE_ERR_CTL: R29 Table 01.6 (01) -/,
    ⟨0x128, 0, 1, 32, 0, 0, 0, none, 0⟩  /- DIE_ERR_INJECT: R29 Table 01.6 (01) -/,
    ⟨0x130, 0, 1, 32, 0, 0, 0, none, 0⟩  /- DIE_ERR_EVCNT: R29 Table 01.6 (01) -/,
    ⟨0x200, 0, 1, 32, 2, 0, 0, none, 0⟩  /- DIE_MEM_CTL: R174 Table 06.6 (06) -/,
    ⟨0x208, 0, 1, 32, 0, 2, 0, some 0x210, 0⟩  /- DIE_MEM_STATUS: R174 Table 06.6 (06) -/,
    ⟨0x210, 0, 1, 32, 0, 0, 0, none, 0⟩  /- DIE_MEM_EVCNT: R174 Table 06.6 (06) -/ ]

/-- The register table of the die block. -/
def rows_die : List RegRow := rows_die0

/-- Registers of the dctl block. -/
def rows_dctl0 : List RegRow :=
  [ ⟨0, 0, 1, 32, 1, 0, 0, none, 0⟩  /- MEM_CTL: R188 Table 06.11 (06) -/,
    ⟨8, 0, 1, 32, 0, 7, 0, some 0x10, 0⟩  /- MEM_STATUS: R188 Table 06.11 (06) -/,
    ⟨0x10, 0, 1, 32, 0, 0, 0, none, 0⟩  /- MEM_EVCNT: R188 Table 06.11 (06) -/,
    ⟨0x18, 0, 1, 32, 0, 0, 0, none, 0⟩  /- MEM_PCH_RETIRED: R188 Table 06.11 (06) -/,
    ⟨0x20, 0, 1, 32, 0, 0, 0, none, 0⟩  /- MEM_PCH_REBUILT: R188 Table 06.11 (06) -/,
    ⟨0x28, 0, 1, 32, 0, 0, 0xFFFFFFFF, none, 0⟩  /- MEM_ABSENT_WR: R188 Table 06.11 (06) -/,
    ⟨0x30, 0, 1, 64, 0, 0, 0xFFFFFFFFFFFFFFFF, none, 0⟩  /- MEM_READS: R188 Table 06.11 (06) -/,
    ⟨0x100, 0, 1, 32, 0, 7, 0, some 0x120, 0⟩  /- MLOG_STATUS: R180 Table 06.8 (06) -/,
    ⟨0x108, 0, 1, 32, 0, 0, 0xFFFFFFFF, none, 0⟩  /- MLOG_OVF: R180 Table 06.8 (06) -/,
    ⟨0x110, 0, 1, 32, 0, 0, 0xFFFFFFFF, none, 0⟩  /- MLOG_TRANSIENT: R180 Table 06.8 (06) -/,
    ⟨0x118, 0, 1, 32, 0, 0, 0, none, 0⟩  /- MLOG_CLEAR: R180 Table 06.8 (06) -/,
    ⟨0x120, 0, 1, 32, 0, 0, 0, none, 0⟩  /- MLOG_EVCNT: R180 Table 06.8 (06) -/,
    ⟨0x140, 0x10, 16, 64, 0, 0, 0, none, 0⟩  /- MLOG_ENTRY_A: R180 Table 06.8 (06) -/,
    ⟨0x148, 0x10, 16, 64, 0, 0, 0, none, 0⟩  /- MLOG_ENTRY_B: R180 Table 06.8 (06) -/ ]

/-- The register table of the dctl block. -/
def rows_dctl : List RegRow := rows_dctl0

/-- Registers of the cluster block, part 1. -/
def rows_cluster0 : List RegRow :=
  [ ⟨0x100, 0, 1, 32, 0, 0x7F, 0, some 0x130, 0⟩  /- CLU_ERR_STATUS: R29 Table 01.6 (01) -/,
    ⟨0x108, 0, 1, 32, 0, 0, 0xFFFFFFFF, none, 0⟩  /- CLU_ERR_COUNT: R29 Table 01.6 (01) -/,
    ⟨0x110, 0, 1, 64, 0, 0, 0, none, 0⟩  /- CLU_ERR_FIRST_INFO: R29 Table 01.6 (01) -/,
    ⟨0x118, 0, 1, 64, 0, 0, 0, none, 0⟩  /- CLU_ERR_FIRST_ADDR: R29 Table 01.6 (01) -/,
    ⟨0x120, 0, 1, 32, 0x1FFFF, 0, 0, none, 0x10100⟩  /- CLU_ERR_CTL: R29 Table 01.6 (01) -/,
    ⟨0x128, 0, 1, 32, 0, 0, 0, none, 0⟩  /- CLU_ERR_INJECT: R29 Table 01.6 (01) -/,
    ⟨0x130, 0, 1, 32, 0, 0, 0, none, 0⟩  /- CLU_ERR_EVCNT: R29 Table 01.6 (01) -/,
    ⟨0x1000, 8, 256, 32, 0xFFFF, 0, 0, none, 0⟩  /- CLU_SEM: R59 (02) -/,
    ⟨0x2000, 0, 1, 32, 0, 7, 0, some 0x2020, 0⟩  /- CS_MLOG_STATUS: R180 Table 06.8 (06) -/,
    ⟨0x2008, 0, 1, 32, 0, 0, 0xFFFFFFFF, none, 0⟩  /- CS_MLOG_OVF: R180 Table 06.8 (06) -/,
    ⟨0x2010, 0, 1, 32, 0, 0, 0xFFFFFFFF, none, 0⟩  /- CS_MLOG_TRANSIENT: R180 Table 06.8 (06) -/,
    ⟨0x2018, 0, 1, 32, 0, 0, 0, none, 0⟩  /- CS_MLOG_CLEAR: R180 Table 06.8 (06) -/,
    ⟨0x2020, 0, 1, 32, 0, 0, 0, none, 0⟩  /- CS_MLOG_EVCNT: R180 Table 06.8 (06) -/,
    ⟨0x2040, 0x10, 16, 64, 0, 0, 0, none, 0⟩  /- CS_MLOG_ENTRY_A: R180 Table 06.8 (06) -/,
    ⟨0x2048, 0x10, 16, 64, 0, 0, 0, none, 0⟩  /- CS_MLOG_ENTRY_B: R180 Table 06.8 (06) -/,
    ⟨0x3000, 0x10, 16, 64, 0x3FFFFFFFFFFFF, 0, 0, none, 0⟩  /- MV_WINDOW_A: R193 Table 07.8 (07) -/ ]

/-- Registers of the cluster block, part 2. -/
def rows_cluster1 : List RegRow :=
  [ ⟨0x3008, 0x10, 16, 64, 0x1FFFFFFFFFF, 0, 0, none, 0⟩  /- MV_WINDOW_B: R193 Table 07.8 (07) -/,
    ⟨0x3100, 0x40, 16, 64, 0xFFFFFFFFFFFF, 0, 0, none, 0⟩  /- MV_SRC: R190 Table 07.2 (07) -/,
    ⟨0x3108, 0x40, 16, 64, 0xFFFFFFFFFFFF, 0, 0, none, 0⟩  /- MV_DST: R190 Table 07.2 (07) -/,
    ⟨0x3110, 0x40, 16, 32, 0xFFFFFFFF, 0, 0, none, 0⟩  /- MV_COUNT: R190 Table 07.2 (07) -/,
    ⟨0x3118, 0x40, 16, 32, 0xFFFFFFFC, 0, 0, none, 0x3E000000⟩  /- MV_CTL: R190 Table 07.2 (07) -/,
    ⟨0x3120, 0x40, 16, 64, 0xFFFFFFFFFFFF, 0, 0, none, 0⟩  /- MV_DESC: R190 Table 07.2 (07) -/,
    ⟨0x3128, 0x40, 16, 64, 0xFFFFFFFFFFFF, 0, 0, none, 0⟩  /- MV_HEAD: R190 Table 07.2 (07) -/,
    ⟨0x3130, 0x40, 16, 32, 0, 0x7C, 0, some 0x3138, 0⟩  /- MV_STATUS: R190 Table 07.2 (07) -/,
    ⟨0x3138, 0x40, 16, 32, 0, 0, 0, none, 0⟩  /- MV_EVCNT: R190 Table 07.2 (07) -/ ]

/-- The register table of the cluster block. -/
def rows_cluster : List RegRow := rows_cluster0 ++ rows_cluster1

/-- Registers of the core block, part 1. -/
def rows_core0 : List RegRow :=
  [ ⟨0, 0, 1, 32, 4, 0, 0, none, 0⟩  /- CORE_CTL: R69 Table 02.10 (02) -/,
    ⟨8, 0, 1, 32, 0x7FF, 0, 0, none, 0⟩  /- CORE_ENTRY: R69 Table 02.10 (02) -/,
    ⟨0x10, 0, 1, 32, 0, 0x7E, 0, some 0x38, 0⟩  /- CORE_STATUS: R69 Table 02.10 (02) -/,
    ⟨0x18, 0, 1, 32, 0, 0, 0, none, 0⟩  /- CORE_PC: R69 Table 02.10 (02) -/,
    ⟨0x20, 0, 1, 64, 0, 0, 0, none, 0⟩  /- CORE_CYCLES: R69 Table 02.10 (02) -/,
    ⟨0x28, 0, 1, 64, 0xFFFFFFFFFFFFFFFF, 0, 0, none, 0⟩  /- CORE_BUDGET: R69 Table 02.10 (02) -/,
    ⟨0x30, 0, 1, 32, 0, 0, 0xFFFFFFFF, none, 0⟩  /- CORE_BANK_STALLS: R69 Table 02.10 (02) -/,
    ⟨0x38, 0, 1, 32, 0, 0, 0, none, 0⟩  /- CORE_EVCNT: R69 Table 02.10 (02) -/,
    ⟨0x40, 0, 1, 64, 0, 0, 0, none, 0⟩  /- CORE_QDEPTH: R69 Table 02.10 (02) -/,
    ⟨0x48, 8, 8, 64, 0xFFFFFFFFFFFFFFFF, 0, 0, none, 0⟩  /- CORE_ARG: R69 Table 02.10 (02) -/,
    ⟨0x100, 0, 1, 32, 0, 0x7F, 0, some 0x130, 0⟩  /- CORE_ERR_STATUS: R29 Table 01.6 (01) -/,
    ⟨0x108, 0, 1, 32, 0, 0, 0xFFFFFFFF, none, 0⟩  /- CORE_ERR_COUNT: R29 Table 01.6 (01) -/,
    ⟨0x110, 0, 1, 64, 0, 0, 0, none, 0⟩  /- CORE_ERR_FIRST_INFO: R29 Table 01.6 (01) -/,
    ⟨0x118, 0, 1, 64, 0, 0, 0, none, 0⟩  /- CORE_ERR_FIRST_ADDR: R29 Table 01.6 (01) -/,
    ⟨0x120, 0, 1, 32, 0x1FFFF, 0, 0, none, 0x10100⟩  /- CORE_ERR_CTL: R29 Table 01.6 (01) -/,
    ⟨0x128, 0, 1, 32, 0, 0, 0, none, 0⟩  /- CORE_ERR_INJECT: R29 Table 01.6 (01) -/ ]

/-- Registers of the core block, part 2. -/
def rows_core1 : List RegRow :=
  [ ⟨0x130, 0, 1, 32, 0, 0, 0, none, 0⟩  /- CORE_ERR_EVCNT: R29 Table 01.6 (01) -/,
    ⟨0x140, 0x40, 5, 32, 0, 0x7F, 0, some 0x170, 0⟩  /- ENG_ERR_STATUS: R29 Table 01.6 (01) -/,
    ⟨0x148, 0x40, 5, 32, 0, 0, 0xFFFFFFFF, none, 0⟩  /- ENG_ERR_COUNT: R29 Table 01.6 (01) -/,
    ⟨0x150, 0x40, 5, 64, 0, 0, 0, none, 0⟩  /- ENG_ERR_FIRST_INFO: R29 Table 01.6 (01) -/,
    ⟨0x158, 0x40, 5, 64, 0, 0, 0, none, 0⟩  /- ENG_ERR_FIRST_ADDR: R29 Table 01.6 (01) -/,
    ⟨0x160, 0x40, 5, 32, 0x1FFFF, 0, 0, none, 0x10100⟩  /- ENG_ERR_CTL: R29 Table 01.6 (01) -/,
    ⟨0x168, 0x40, 5, 32, 0, 0, 0, none, 0⟩  /- ENG_ERR_INJECT: R29 Table 01.6 (01) -/,
    ⟨0x170, 0x40, 5, 32, 0, 0, 0, none, 0⟩  /- ENG_ERR_EVCNT: R29 Table 01.6 (01) -/,
    ⟨0x400, 8, 64, 32, 0xFFFF, 0, 0, none, 0⟩  /- CORE_SEM: R59 (02) -/,
    ⟨0x800, 0, 1, 32, 0, 7, 0, some 0x820, 0⟩  /- COS_MLOG_STATUS: R180 Table 06.8 (06) -/,
    ⟨0x808, 0, 1, 32, 0, 0, 0xFFFFFFFF, none, 0⟩  /- COS_MLOG_OVF: R180 Table 06.8 (06) -/,
    ⟨0x810, 0, 1, 32, 0, 0, 0xFFFFFFFF, none, 0⟩  /- COS_MLOG_TRANSIENT: R180 Table 06.8 (06) -/,
    ⟨0x818, 0, 1, 32, 0, 0, 0, none, 0⟩  /- COS_MLOG_CLEAR: R180 Table 06.8 (06) -/,
    ⟨0x820, 0, 1, 32, 0, 0, 0, none, 0⟩  /- COS_MLOG_EVCNT: R180 Table 06.8 (06) -/,
    ⟨0x840, 0x10, 16, 64, 0, 0, 0, none, 0⟩  /- COS_MLOG_ENTRY_A: R180 Table 06.8 (06) -/,
    ⟨0x848, 0x10, 16, 64, 0, 0, 0, none, 0⟩  /- COS_MLOG_ENTRY_B: R180 Table 06.8 (06) -/ ]

/-- Registers of the core block, part 3. -/
def rows_core2 : List RegRow :=
  [ ⟨0xA00, 0, 1, 32, 0, 7, 0, some 0xA20, 0⟩  /- IS_MLOG_STATUS: R180 Table 06.8 (06) -/,
    ⟨0xA08, 0, 1, 32, 0, 0, 0xFFFFFFFF, none, 0⟩  /- IS_MLOG_OVF: R180 Table 06.8 (06) -/,
    ⟨0xA10, 0, 1, 32, 0, 0, 0xFFFFFFFF, none, 0⟩  /- IS_MLOG_TRANSIENT: R180 Table 06.8 (06) -/,
    ⟨0xA18, 0, 1, 32, 0, 0, 0, none, 0⟩  /- IS_MLOG_CLEAR: R180 Table 06.8 (06) -/,
    ⟨0xA20, 0, 1, 32, 0, 0, 0, none, 0⟩  /- IS_MLOG_EVCNT: R180 Table 06.8 (06) -/,
    ⟨0xA40, 0x10, 16, 64, 0, 0, 0, none, 0⟩  /- IS_MLOG_ENTRY_A: R180 Table 06.8 (06) -/,
    ⟨0xA48, 0x10, 16, 64, 0, 0, 0, none, 0⟩  /- IS_MLOG_ENTRY_B: R180 Table 06.8 (06) -/,
    ⟨0xC00, 0x10, 16, 64, 0x3FFFFFFFFFFFF, 0, 0, none, 0⟩  /- MV_WINDOW_A: R193 Table 07.8 (07) -/,
    ⟨0xC08, 0x10, 16, 64, 0x1FFFFFFFFFF, 0, 0, none, 0⟩  /- MV_WINDOW_B: R193 Table 07.8 (07) -/,
    ⟨0xD00, 0x40, 8, 64, 0xFFFFFFFFFFFF, 0, 0, none, 0⟩  /- MV_SRC: R190 Table 07.2 (07) -/,
    ⟨0xD08, 0x40, 8, 64, 0xFFFFFFFFFFFF, 0, 0, none, 0⟩  /- MV_DST: R190 Table 07.2 (07) -/,
    ⟨0xD10, 0x40, 8, 32, 0xFFFFFFFF, 0, 0, none, 0⟩  /- MV_COUNT: R190 Table 07.2 (07) -/,
    ⟨0xD18, 0x40, 8, 32, 0xFFFFFFFC, 0, 0, none, 0x3E000000⟩  /- MV_CTL: R190 Table 07.2 (07) -/,
    ⟨0xD20, 0x40, 8, 64, 0xFFFFFFFFFFFF, 0, 0, none, 0⟩  /- MV_DESC: R190 Table 07.2 (07) -/,
    ⟨0xD28, 0x40, 8, 64, 0xFFFFFFFFFFFF, 0, 0, none, 0⟩  /- MV_HEAD: R190 Table 07.2 (07) -/,
    ⟨0xD30, 0x40, 8, 32, 0, 0x7C, 0, some 0xD38, 0⟩  /- MV_STATUS: R190 Table 07.2 (07) -/ ]

/-- Registers of the core block, part 4. -/
def rows_core3 : List RegRow :=
  [ ⟨0xD38, 0x40, 8, 32, 0, 0, 0, none, 0⟩  /- MV_EVCNT: R190 Table 07.2 (07) -/ ]

/-- The register table of the core block. -/
def rows_core : List RegRow := rows_core0 ++ rows_core1 ++ rows_core2 ++ rows_core3

/-- Registers of the bar0 block, part 1. -/
def rows_bar00 : List RegRow :=
  [ ⟨0, 0x10, 4, 32, 0xFFFFFFFF, 0, 0, none, 0⟩  /- HIF_SQ_TAIL: R215 Table 08.3 (08) -/,
    ⟨8, 0x10, 4, 32, 0xFFFFFFFF, 0, 0, none, 0⟩  /- HIF_CQ_HEAD: R215 Table 08.3 (08) -/,
    ⟨0x40, 0x10, 4, 32, 0, 0, 0, none, 0⟩  /- HIF_SQ_HEAD: R215 Table 08.3 (08) -/,
    ⟨0x48, 0x10, 4, 32, 0, 0, 0, none, 0⟩  /- HIF_CQ_TAIL: R215 Table 08.3 (08) -/,
    ⟨0x80, 0, 1, 32, 0xFFFF, 0, 0, none, 0⟩  /- HIF_HOST_VER: R215 Table 08.3 (08) -/,
    ⟨0x88, 0, 1, 32, 0, 0, 0, none, 0x2000300⟩  /- HIF_FW_VER: R215 Table 08.3 (08) -/,
    ⟨0x90, 0, 1, 32, 0, 0, 0, none, 0⟩  /- HIF_CTL: R215 Table 08.3 (08) -/,
    ⟨0x98, 0, 1, 32, 0, 0xE, 0, some 0xA8, 0⟩  /- HIF_STATUS: R215 Table 08.3 (08) -/,
    ⟨0xA0, 0, 1, 32, 0, 0, 0, none, 0⟩  /- HIF_FW_EPOCH: R215 Table 08.3 (08) -/,
    ⟨0xA8, 0, 1, 32, 0, 0, 0, none, 0⟩  /- HIF_EVCNT: R215 Table 08.3 (08) -/,
    ⟨0x1000, 0x10, 32, 64, 0xFFFFFFFFFFFFFFFF, 0, 0, none, 0⟩  /- MSIX_ADDR: R312 Table 11.2 (11) -/,
    ⟨0x1008, 0x10, 32, 32, 0xFFFFFFFF, 0, 0, none, 0⟩  /- MSIX_DATA: R312 Table 11.2 (11) -/,
    ⟨0x100C, 0x10, 32, 32, 1, 0, 0, none, 1⟩  /- MSIX_CTL: R312 Table 11.2 (11) -/,
    ⟨0x1800, 0, 1, 64, 0, 0, 0, none, 0⟩  /- MSIX_PBA: R312 Table 11.2 (11) -/,
    ⟨0x2000, 8, 8, 64, 0xFFFFFFFFFFFFFFFF, 0, 0, none, 0⟩  /- MBX_REQ: R315 Table 11.4 (11) -/,
    ⟨0x2040, 8, 8, 64, 0, 0, 0, none, 0⟩  /- MBX_RESP: R315 Table 11.4 (11) -/ ]

/-- Registers of the bar0 block, part 2. -/
def rows_bar01 : List RegRow :=
  [ ⟨0x2080, 0, 1, 32, 0, 0, 0, none, 0⟩  /- MBX_CTL: R315 Table 11.4 (11) -/,
    ⟨0x2088, 0, 1, 32, 0, 2, 0, some 0x2098, 0⟩  /- MBX_STATUS: R315 Table 11.4 (11) -/,
    ⟨0x2090, 0, 1, 32, 0, 0x1F, 0, some 0x2098, 0⟩  /- MBX_EVENT: R315 Table 11.4 (11) -/,
    ⟨0x2098, 0, 1, 32, 0, 0, 0, none, 0⟩  /- MBX_EVCNT: R315 Table 11.4 (11) -/,
    ⟨0x20A0, 8, 17, 32, 0, 0, 0, none, 0⟩  /- INST_STATE: R315 Table 11.4 (11) -/ ]

/-- The register table of the bar0 block. -/
def rows_bar0 : List RegRow := rows_bar00 ++ rows_bar01

/-- Registers of the clkd block. -/
def rows_clkd0 : List RegRow :=
  [ ⟨0, 0, 1, 32, 0, 0, 0, none, 4⟩  /- DIE_CLK_CTL: R18 Table 01.3 (01); the spec gives no address -/,
    ⟨8, 0, 1, 32, 0, 0, 0, none, 4⟩  /- DIE_CLK_STATUS: R18 Table 01.3 (01); the spec gives no address -/ ]

/-- The register table of the clkd block. -/
def rows_clkd : List RegRow := rows_clkd0

/-- The register table of a block. -/
def Blk.rows : Blk → List RegRow
  | .hubId => rows_hubId
  | .sec => rows_sec
  | .firn => rows_firn
  | .hmov => rows_hmov
  | .drift => rows_drift
  | .rime => rows_rime
  | .serac => rows_serac
  | .snow => rows_snow
  | .stream => rows_stream
  | .gateway => rows_gateway
  | .baseth => rows_baseth
  | .cornice => rows_cornice
  | .power => rows_power
  | .die => rows_die
  | .dctl => rows_dctl
  | .cluster => rows_cluster
  | .core => rows_core
  | .bar0 => rows_bar0
  | .clkd => rows_clkd

/-- Does a row hold a register at offset `off`? -/
def RegRow.holds (r : RegRow) (off : Nat) : Bool :=
  decide (r.off ≤ off) &&
    (if r.count = 1 then off == r.off
     else (off - r.off) % r.stride == 0 && decide ((off - r.off) / r.stride < r.count))

/-- The table row of the register at a key, with its block and unit. A reserved offset has none (R11). -/
def regInfo (a : Nat) : Option (Blk × Nat × RegRow) :=
  match blkOf a with
  | none => none
  | some (b, u, off) =>
    match b.rows.find? (fun r => r.holds off) with
    | none => none
    | some r => if u < b.units then some (b, u, r) else none

/-- The reset value of the register at a key (0 where nothing is defined: R11). -/
def regReset (a : Nat) : Word :=
  match regInfo a with
  | some (_, _, r) => r.reset
  | none => 0

/-! ### Shared blocks -/

/-- The error block of a unit (R29); an engine's unit number is core × 5 + engine. -/
def errBase (l : Level) (u : Nat) : Nat :=
  match l with
  | .engine => Blk.base .core (u / 5) + 0x140 + u % 5 * 0x40
  | .core => Blk.base .core u + 0x100
  | .cluster => Blk.base .cluster u + 0x100
  | .die => Blk.base .die u + 0x100
  | .package => 0x100

/-- A channel's register block (Table 07.1). -/
def chanBase : ChanId → Nat
  | .core n ch => Blk.base .core n + 0xD00 + ch * 0x40
  | .cluster c ch => Blk.base .cluster c + 0x3100 + ch * 0x40
  | .hub ch => Blk.base .hmov 0 + 0x100 + ch * 0x40

/-- A log block (Table 06.9). -/
def logBase : LogId → Nat
  | .dram k => Blk.base .dctl k + 0x100
  | .coreStore n => Blk.base .core n + 0x800
  | .instrStore n => Blk.base .core n + 0xA00
  | .clusterStore c => Blk.base .cluster c + 0x2000

namespace Reg

/-- ERR_STATUS. -/
abbrev ERR_STATUS (l : Level) (u : Nat) : Nat := errBase l u + 0
/-- ERR_COUNT. -/
abbrev ERR_COUNT (l : Level) (u : Nat) : Nat := errBase l u + 8
/-- ERR_FIRST_INFO. -/
abbrev ERR_FIRST_INFO (l : Level) (u : Nat) : Nat := errBase l u + 0x10
/-- ERR_FIRST_ADDR. -/
abbrev ERR_FIRST_ADDR (l : Level) (u : Nat) : Nat := errBase l u + 0x18
/-- ERR_CTL. -/
abbrev ERR_CTL (l : Level) (u : Nat) : Nat := errBase l u + 0x20
/-- ERR_INJECT. -/
abbrev ERR_INJECT (l : Level) (u : Nat) : Nat := errBase l u + 0x28
/-- ERR_EVCNT. -/
abbrev ERR_EVCNT (l : Level) (u : Nat) : Nat := errBase l u + 0x30
/-- MV_SRC. -/
abbrev MV_SRC (c : ChanId) : Nat := chanBase c + 0
/-- MV_DST. -/
abbrev MV_DST (c : ChanId) : Nat := chanBase c + 8
/-- MV_COUNT. -/
abbrev MV_COUNT (c : ChanId) : Nat := chanBase c + 0x10
/-- MV_CTL. -/
abbrev MV_CTL (c : ChanId) : Nat := chanBase c + 0x18
/-- MV_DESC. -/
abbrev MV_DESC (c : ChanId) : Nat := chanBase c + 0x20
/-- MV_HEAD. -/
abbrev MV_HEAD (c : ChanId) : Nat := chanBase c + 0x28
/-- MV_STATUS. -/
abbrev MV_STATUS (c : ChanId) : Nat := chanBase c + 0x30
/-- MV_EVCNT. -/
abbrev MV_EVCNT (c : ChanId) : Nat := chanBase c + 0x38
/-- MLOG_STATUS. -/
abbrev MLOG_STATUS (l : LogId) : Nat := logBase l + 0
/-- MLOG_OVF. -/
abbrev MLOG_OVF (l : LogId) : Nat := logBase l + 8
/-- MLOG_TRANSIENT. -/
abbrev MLOG_TRANSIENT (l : LogId) : Nat := logBase l + 0x10
/-- MLOG_CLEAR. -/
abbrev MLOG_CLEAR (l : LogId) : Nat := logBase l + 0x18
/-- MLOG_EVCNT. -/
abbrev MLOG_EVCNT (l : LogId) : Nat := logBase l + 0x20
/-- MLOG_ENTRYi_A. -/
abbrev MLOG_ENTRY_A (l : LogId) (i : Nat) : Nat := logBase l + 0x40 + i * 0x10
/-- MLOG_ENTRYi_B. -/
abbrev MLOG_ENTRY_B (l : LogId) (i : Nat) : Nat := logBase l + 0x48 + i * 0x10
/-- HUB_PART_ID (R6 Table 00.6 (00)). -/
abbrev HUB_PART_ID : Nat := 0
/-- HUB_STEPPING (R6 Table 00.6 (00)). -/
abbrev HUB_STEPPING : Nat := 4
/-- HUB_UID_LO (R6 Table 00.6 (00)). -/
abbrev HUB_UID_LO : Nat := 8
/-- HUB_UID_HI (R6 Table 00.6 (00)). -/
abbrev HUB_UID_HI : Nat := 0xC
/-- MEM_SECURE_WM (R346 Table 12.8 (12)). -/
abbrev MEM_SECURE_WM : Nat := 0x8000 + 0
/-- SEC_TENANT (R346 Table 12.8 (12)). -/
abbrev SEC_TENANT : Nat := 0x8000 + 8
/-- SEC_TENANT_ID (R346 Table 12.8 (12)). -/
abbrev SEC_TENANT_ID : Nat := 0x8000 + 0x10
/-- SEC_DBG (R346 Table 12.8 (12)). -/
abbrev SEC_DBG : Nat := 0x8000 + 0x18
/-- SEC_CLAIM (R346 Table 12.8 (12)). -/
abbrev SEC_CLAIM : Nat := 0x8000 + 0x20
/-- SEC_PM_PEND (R346 Table 12.8 (12)). -/
abbrev SEC_PM_PEND : Nat := 0x8000 + 0x28
/-- SEC_PM_KIND (R346 Table 12.8 (12)). -/
abbrev SEC_PM_KIND : Nat := 0x8000 + 0x30
/-- SEC_STATUS (R346 Table 12.8 (12)). -/
abbrev SEC_STATUS : Nat := 0x8000 + 0x38
/-- SEC_EVCNT (R346 Table 12.8 (12)). -/
abbrev SEC_EVCNT : Nat := 0x8000 + 0x40
/-- SEC_VIOL_ADDR (R346 Table 12.8 (12)). -/
abbrev SEC_VIOL_ADDR : Nat := 0x8000 + 0x48
/-- SEC_PIN (R346 Table 12.8 (12)). -/
abbrev SEC_PIN : Nat := 0x8000 + 0x50
/-- ENCL_A (R346 Table 12.8 (12)). -/
abbrev ENCL_A (i : Nat) : Nat := 0x8000 + 0x100 + i * 0x10
/-- ENCL_B (R346 Table 12.8 (12)). -/
abbrev ENCL_B (i : Nat) : Nat := 0x8000 + 0x108 + i * 0x10
/-- FIRN_CTL (R163 Table 05.12 (05)). -/
abbrev FIRN_CTL : Nat := 0x10000 + 0
/-- FIRN_STATUS (R163 Table 05.12 (05)). -/
abbrev FIRN_STATUS : Nat := 0x10000 + 8
/-- FIRN_EVCNT (R163 Table 05.12 (05)). -/
abbrev FIRN_EVCNT : Nat := 0x10000 + 0x10
/-- FIRN_PMAP_BASE (R163 Table 05.12 (05)). -/
abbrev FIRN_PMAP_BASE : Nat := 0x10000 + 0x18
/-- FIRN_STAB_BASE (R163 Table 05.12 (05)). -/
abbrev FIRN_STAB_BASE : Nat := 0x10000 + 0x20
/-- FIRN_TREE_BASE (R163 Table 05.12 (05)). -/
abbrev FIRN_TREE_BASE : Nat := 0x10000 + 0x28
/-- FIRN_LOW_MARK (R163 Table 05.12 (05)). -/
abbrev FIRN_LOW_MARK : Nat := 0x10000 + 0x30
/-- FIRN_STEPS (R163 Table 05.12 (05)). -/
abbrev FIRN_STEPS : Nat := 0x10000 + 0x38
/-- FIRN_FREE (R163 Table 05.12 (05)). -/
abbrev FIRN_FREE (i : Nat) : Nat := 0x10000 + 0x40 + i * 8
/-- FIRN_RETIRED (R163 Table 05.12 (05)). -/
abbrev FIRN_RETIRED : Nat := 0x10000 + 0x60
/-- FIRN_COW (R163 Table 05.12 (05)). -/
abbrev FIRN_COW : Nat := 0x10000 + 0x68
/-- FIRN_TC_MISS (R163 Table 05.12 (05)). -/
abbrev FIRN_TC_MISS (i : Nat) : Nat := 0x10000 + 0x70 + i * 8
/-- DRIFT_CTL (R208 Table 07.11 (07)). -/
abbrev DRIFT_CTL : Nat := 0x30000 + 0
/-- DRIFT_STATUS (R208 Table 07.11 (07)). -/
abbrev DRIFT_STATUS : Nat := 0x30000 + 8
/-- DRIFT_EVCNT (R208 Table 07.11 (07)). -/
abbrev DRIFT_EVCNT : Nat := 0x30000 + 0x10
/-- DRIFT_DERATED_MAP (R208 Table 07.11 (07)). -/
abbrev DRIFT_DERATED_MAP : Nat := 0x30000 + 0x18
/-- DRIFT_WEIGHT (R208 Table 07.11 (07)). -/
abbrev DRIFT_WEIGHT (i : Nat) : Nat := 0x30000 + 0x20 + i * 4
/-- DRIFT_SHARE (R208 Table 07.11 (07)). -/
abbrev DRIFT_SHARE (i : Nat) : Nat := 0x30000 + 0x100 + i * 4
/-- DRIFT_CAP (R208 Table 07.11 (07)). -/
abbrev DRIFT_CAP (i : Nat) : Nat := 0x30000 + 0x400 + i * 4
/-- DRIFT_CAP_CLU (R208 Table 07.11 (07)). -/
abbrev DRIFT_CAP_CLU (i : Nat) : Nat := 0x30000 + 0x420 + i * 4
/-- RIME_STATUS (R244 Table 08.14 (08)). -/
abbrev RIME_STATUS (u : Nat) : Nat := Blk.base .rime u + 0
/-- RIME_EVCNT (R244 Table 08.14 (08)). -/
abbrev RIME_EVCNT (u : Nat) : Nat := Blk.base .rime u + 8
/-- RIME_WDT_CTL (R244 Table 08.14 (08)). -/
abbrev RIME_WDT_CTL (u : Nat) : Nat := Blk.base .rime u + 0x10
/-- RIME_WDT_KICK (R244 Table 08.14 (08)). -/
abbrev RIME_WDT_KICK (u : Nat) : Nat := Blk.base .rime u + 0x18
/-- RIME_WDT_LEFT (R244 Table 08.14 (08)). -/
abbrev RIME_WDT_LEFT (u : Nat) : Nat := Blk.base .rime u + 0x20
/-- RIME_RESTARTS (R244 Table 08.14 (08)). -/
abbrev RIME_RESTARTS (u : Nat) : Nat := Blk.base .rime u + 0x28
/-- RIME_LAST_PC (R244 Table 08.14 (08)). -/
abbrev RIME_LAST_PC (u : Nat) : Nat := Blk.base .rime u + 0x30
/-- RIME_EPOCH (R244 Table 08.14 (08)). -/
abbrev RIME_EPOCH (u : Nat) : Nat := Blk.base .rime u + 0x38
/-- SERAC_STATUS (R279 Table 09.10 (09)). -/
abbrev SERAC_STATUS : Nat := 0x200000 + 0
/-- SERAC_EVCNT (R279 Table 09.10 (09)). -/
abbrev SERAC_EVCNT : Nat := 0x200000 + 8
/-- SERAC_HOLD (R279 Table 09.10 (09)). -/
abbrev SERAC_HOLD : Nat := 0x200000 + 0x10
/-- SERAC_TWIN_MISMATCH (R279 Table 09.10 (09)). -/
abbrev SERAC_TWIN_MISMATCH : Nat := 0x200000 + 0x18
/-- SERAC_TWIN_TRANSIENT (R279 Table 09.10 (09)). -/
abbrev SERAC_TWIN_TRANSIENT : Nat := 0x200000 + 0x20
/-- SERAC_PAIR_RETIRED (R279 Table 09.10 (09)). -/
abbrev SERAC_PAIR_RETIRED : Nat := 0x200000 + 0x28
/-- SERAC_PAIR_SUSPECT (R279 Table 09.10 (09)). -/
abbrev SERAC_PAIR_SUSPECT : Nat := 0x200000 + 0x30
/-- SERAC_ST_DEFER (R279 Table 09.10 (09)). -/
abbrev SERAC_ST_DEFER : Nat := 0x200000 + 0x38
/-- SERAC_ST_ABANDON (R279 Table 09.10 (09)). -/
abbrev SERAC_ST_ABANDON : Nat := 0x200000 + 0x40
/-- SERAC_ST_AGE (R279 Table 09.10 (09)). -/
abbrev SERAC_ST_AGE : Nat := 0x200000 + 0x48
/-- SERAC_INJ_RESULT (R279 Table 09.10 (09)). -/
abbrev SERAC_INJ_RESULT : Nat := 0x200000 + 0x50
/-- SERAC_LAST_RESTART (R279 Table 09.10 (09)). -/
abbrev SERAC_LAST_RESTART : Nat := 0x200000 + 0x58
/-- SERAC_CFG (R279 Table 09.10 (09)). -/
abbrev SERAC_CFG : Nat := 0x200000 + 0x60
/-- TASK_IMAGE (R265 Table 09.11 (09)). -/
abbrev TASK_IMAGE (i : Nat) : Nat := 0x200000 + 0x100 + i * 0x20
/-- TASK_TIMING (R265 Table 09.11 (09)). -/
abbrev TASK_TIMING (i : Nat) : Nat := 0x200000 + 0x108 + i * 0x20
/-- TASK_LIMITS (R265 Table 09.11 (09)). -/
abbrev TASK_LIMITS (i : Nat) : Nat := 0x200000 + 0x110 + i * 0x20
/-- TASK_STATE (R265 Table 09.11 (09)). -/
abbrev TASK_STATE (i : Nat) : Nat := 0x200000 + 0x118 + i * 0x20
/-- SNOW_CTL (R373 Table 13.10 (13)). -/
abbrev SNOW_CTL : Nat := 0x300000 + 0
/-- SNOW_STATUS (R373 Table 13.10 (13)). -/
abbrev SNOW_STATUS : Nat := 0x300000 + 8
/-- SNOW_EVCNT (R373 Table 13.10 (13)). -/
abbrev SNOW_EVCNT : Nat := 0x300000 + 0x10
/-- SNOW_NS (R373 Table 13.10 (13)). -/
abbrev SNOW_NS : Nat := 0x300000 + 0x18
/-- SNOW_FRAC (R373 Table 13.10 (13)). -/
abbrev SNOW_FRAC : Nat := 0x300000 + 0x20
/-- SNOW_INCR (R373 Table 13.10 (13)). -/
abbrev SNOW_INCR : Nat := 0x300000 + 0x28
/-- SNOW_STEP (R373 Table 13.10 (13)). -/
abbrev SNOW_STEP : Nat := 0x300000 + 0x30
/-- SNOW_SLEW (R373 Table 13.10 (13)). -/
abbrev SNOW_SLEW : Nat := 0x300000 + 0x38
/-- PLAN_STATUS (R373 Table 13.10 (13)). -/
abbrev PLAN_STATUS : Nat := 0x300000 + 0x40
/-- CMP_CTL (R373 Table 13.10 (13)). -/
abbrev CMP_CTL (i : Nat) : Nat := 0x300000 + 0x100 + i * 0x20
/-- CMP_TARGET (R373 Table 13.10 (13)). -/
abbrev CMP_TARGET (i : Nat) : Nat := 0x300000 + 0x108 + i * 0x20
/-- CMP_STATUS (R373 Table 13.10 (13)). -/
abbrev CMP_STATUS (i : Nat) : Nat := 0x300000 + 0x110 + i * 0x20
/-- CMP_LAST (R373 Table 13.10 (13)). -/
abbrev CMP_LAST (i : Nat) : Nat := 0x300000 + 0x118 + i * 0x20
/-- TRIG_CFG (R373 Table 13.10 (13)). -/
abbrev TRIG_CFG (i : Nat) : Nat := 0x300000 + 0x300 + i * 8
/-- FSYNC_CFG (R373 Table 13.10 (13)). -/
abbrev FSYNC_CFG (i : Nat) : Nat := 0x300000 + 0x380 + i * 8
/-- CAP_CFG (R373 Table 13.10 (13)). -/
abbrev CAP_CFG (i : Nat) : Nat := 0x300000 + 0x400 + i * 0x20
/-- CAP_TIME (R373 Table 13.10 (13)). -/
abbrev CAP_TIME (i : Nat) : Nat := 0x300000 + 0x408 + i * 0x20
/-- CAP_INFO (R373 Table 13.10 (13)). -/
abbrev CAP_INFO (i : Nat) : Nat := 0x300000 + 0x410 + i * 0x20
/-- CAP_OVF (R373 Table 13.10 (13)). -/
abbrev CAP_OVF (i : Nat) : Nat := 0x300000 + 0x418 + i * 0x20
/-- TTQ_TARGET (R373 Table 13.10 (13)). -/
abbrev TTQ_TARGET (i : Nat) : Nat := 0x300000 + 0x600 + i * 0x40
/-- TTQ_MASK0 (R373 Table 13.10 (13)). -/
abbrev TTQ_MASK0 (i : Nat) : Nat := 0x300000 + 0x608 + i * 0x40
/-- TTQ_MASK1 (R373 Table 13.10 (13)). -/
abbrev TTQ_MASK1 (i : Nat) : Nat := 0x300000 + 0x610 + i * 0x40
/-- TTQ_MASK2 (R373 Table 13.10 (13)). -/
abbrev TTQ_MASK2 (i : Nat) : Nat := 0x300000 + 0x618 + i * 0x40
/-- TTQ_MASK3 (R373 Table 13.10 (13)). -/
abbrev TTQ_MASK3 (i : Nat) : Nat := 0x300000 + 0x620 + i * 0x40
/-- TTQ_CTL (R373 Table 13.10 (13)). -/
abbrev TTQ_CTL (i : Nat) : Nat := 0x300000 + 0x628 + i * 0x40
/-- TTQ_STATUS (R373 Table 13.10 (13)). -/
abbrev TTQ_STATUS (i : Nat) : Nat := 0x300000 + 0x630 + i * 0x40
/-- STR_CTL (R366 Table 13.6 (13)). -/
abbrev STR_CTL : Nat := 0x400000 + 0
/-- STR_EVCNT (R366 Table 13.6 (13)). -/
abbrev STR_EVCNT : Nat := 0x400000 + 8
/-- RX_STATUS (R366 Table 13.6 (13)). -/
abbrev RX_STATUS (i : Nat) : Nat := 0x400000 + 0x100 + i * 0x10
/-- RX_HDR_ERR (R366 Table 13.6 (13)). -/
abbrev RX_HDR_ERR (i : Nat) : Nat := 0x400000 + 0x108 + i * 0x10
/-- STR_STATUS (R366 Table 13.6 (13)). -/
abbrev STR_STATUS (i : Nat) : Nat := 0x400000 + 0x1000 + i * 0x20
/-- STR_FRAMES (R366 Table 13.6 (13)). -/
abbrev STR_FRAMES (i : Nat) : Nat := 0x400000 + 0x1008 + i * 0x20
/-- STR_DROPPED (R366 Table 13.6 (13)). -/
abbrev STR_DROPPED (i : Nat) : Nat := 0x400000 + 0x1010 + i * 0x20
/-- STR_CRC (R366 Table 13.6 (13)). -/
abbrev STR_CRC (i : Nat) : Nat := 0x400000 + 0x1018 + i * 0x20
/-- TSQ_TIME (R370 (13)). -/
abbrev TSQ_TIME (i : Nat) : Nat := 0x500000 + 0x800 + i * 0x20
/-- TSQ_INFO (R370 (13)). -/
abbrev TSQ_INFO (i : Nat) : Nat := 0x500000 + 0x808 + i * 0x20
/-- TSQ_COUNT (R370 (13)). -/
abbrev TSQ_COUNT (i : Nat) : Nat := 0x500000 + 0x810 + i * 0x20
/-- TSQ_OVF (R370 (13)). -/
abbrev TSQ_OVF (i : Nat) : Nat := 0x500000 + 0x818 + i * 0x20
/-- BASETH_CTL (R306 Table 10.5 (10)). -/
abbrev BASETH_CTL : Nat := 0x600000 + 0
/-- BASETH_STATUS (R306 Table 10.5 (10)). -/
abbrev BASETH_STATUS : Nat := 0x600000 + 8
/-- BASETH_EVCNT (R306 Table 10.5 (10)). -/
abbrev BASETH_EVCNT : Nat := 0x600000 + 0x10
/-- BASETH_COORD (R306 Table 10.5 (10)). -/
abbrev BASETH_COORD : Nat := 0x600000 + 0x18
/-- BASETH_EPOCH (R306 Table 10.5 (10)). -/
abbrev BASETH_EPOCH : Nat := 0x600000 + 0x20
/-- BASETH_FM (R306 Table 10.5 (10)). -/
abbrev BASETH_FM : Nat := 0x600000 + 0x28
/-- PORT_CTL (R306 Table 10.5 (10)). -/
abbrev PORT_CTL (i : Nat) : Nat := 0x600000 + 0x100 + i * 0x40
/-- PORT_STATUS (R306 Table 10.5 (10)). -/
abbrev PORT_STATUS (i : Nat) : Nat := 0x600000 + 0x108 + i * 0x40
/-- PORT_PEER (R306 Table 10.5 (10)). -/
abbrev PORT_PEER (i : Nat) : Nat := 0x600000 + 0x110 + i * 0x40
/-- PORT_PEER_PORT (R306 Table 10.5 (10)). -/
abbrev PORT_PEER_PORT (i : Nat) : Nat := 0x600000 + 0x118 + i * 0x40
/-- PORT_RETRIES (R306 Table 10.5 (10)). -/
abbrev PORT_RETRIES (i : Nat) : Nat := 0x600000 + 0x120 + i * 0x40
/-- PORT_FEC (R306 Table 10.5 (10)). -/
abbrev PORT_FEC (i : Nat) : Nat := 0x600000 + 0x128 + i * 0x40
/-- PORT_EVCNT (R306 Table 10.5 (10)). -/
abbrev PORT_EVCNT (i : Nat) : Nat := 0x600000 + 0x130 + i * 0x40
/-- CND_LOCAL (R298 Table 10.4 (10)). -/
abbrev CND_LOCAL (i : Nat) : Nat := 0x600000 + 0x1000 + i * 0x40
/-- CND_REMOTE (R298 Table 10.4 (10)). -/
abbrev CND_REMOTE (i : Nat) : Nat := 0x600000 + 0x1008 + i * 0x40
/-- CND_SLOT (R298 Table 10.4 (10)). -/
abbrev CND_SLOT (i : Nat) : Nat := 0x600000 + 0x1010 + i * 0x40
/-- CND_PEER (R298 Table 10.4 (10)). -/
abbrev CND_PEER (i : Nat) : Nat := 0x600000 + 0x1018 + i * 0x40
/-- CND_CTL (R298 Table 10.4 (10)). -/
abbrev CND_CTL (i : Nat) : Nat := 0x600000 + 0x1020 + i * 0x40
/-- CND_STATUS (R298 Table 10.4 (10)). -/
abbrev CND_STATUS (i : Nat) : Nat := 0x600000 + 0x1028 + i * 0x40
/-- CND_COUNT (R298 Table 10.4 (10)). -/
abbrev CND_COUNT (i : Nat) : Nat := 0x600000 + 0x1030 + i * 0x40
/-- CND_EVCNT (R298 Table 10.4 (10)). -/
abbrev CND_EVCNT (i : Nat) : Nat := 0x600000 + 0x1038 + i * 0x40
/-- CORNICE_CTL (R394 Table 14.7 (14)). -/
abbrev CORNICE_CTL : Nat := 0x800000 + 0
/-- CORNICE_STATUS (R394 Table 14.7 (14)). -/
abbrev CORNICE_STATUS : Nat := 0x800000 + 8
/-- CORNICE_EVCNT (R394 Table 14.7 (14)). -/
abbrev CORNICE_EVCNT : Nat := 0x800000 + 0x10
/-- CORNICE_PASSES (R394 Table 14.7 (14)). -/
abbrev CORNICE_PASSES : Nat := 0x800000 + 0x18
/-- CORNICE_SKIPPED (R394 Table 14.7 (14)). -/
abbrev CORNICE_SKIPPED : Nat := 0x800000 + 0x20
/-- CORNICE_GROWS (R394 Table 14.7 (14)). -/
abbrev CORNICE_GROWS : Nat := 0x800000 + 0x28
/-- CORNICE_RAYS (R394 Table 14.7 (14)). -/
abbrev CORNICE_RAYS : Nat := 0x800000 + 0x30
/-- HEAD_STATUS (R394 Table 14.7 (14)). -/
abbrev HEAD_STATUS (i : Nat) : Nat := 0x800000 + 0x100 + i * 0x20
/-- HEAD_SCAN (R394 Table 14.7 (14)). -/
abbrev HEAD_SCAN (i : Nat) : Nat := 0x800000 + 0x108 + i * 0x20
/-- HEAD_FRAMES (R394 Table 14.7 (14)). -/
abbrev HEAD_FRAMES (i : Nat) : Nat := 0x800000 + 0x110 + i * 0x20
/-- HEAD_UNDERRUN (R394 Table 14.7 (14)). -/
abbrev HEAD_UNDERRUN (i : Nat) : Nat := 0x800000 + 0x118 + i * 0x20
/-- PWR_MODE (R417 Table 15.6 (15)). -/
abbrev PWR_MODE : Nat := 0x900000 + 0
/-- PWR_STATUS (R417 Table 15.6 (15)). -/
abbrev PWR_STATUS : Nat := 0x900000 + 8
/-- PWR_EVCNT (R417 Table 15.6 (15)). -/
abbrev PWR_EVCNT : Nat := 0x900000 + 0x10
/-- PWR_CLK_OFF (R417 Table 15.6 (15)). -/
abbrev PWR_CLK_OFF : Nat := 0x900000 + 0x18
/-- PWR_PWR_OFF (R417 Table 15.6 (15)). -/
abbrev PWR_PWR_OFF : Nat := 0x900000 + 0x20
/-- PWR_TJ (R417 Table 15.6 (15)). -/
abbrev PWR_TJ : Nat := 0x900000 + 0x28
/-- PWR_PKG (R417 Table 15.6 (15)). -/
abbrev PWR_PKG : Nat := 0x900000 + 0x30
/-- NVM_STATUS (R417 Table 15.6 (15)). -/
abbrev NVM_STATUS : Nat := 0x900000 + 0x100
/-- NVM_EVCNT (R417 Table 15.6 (15)). -/
abbrev NVM_EVCNT : Nat := 0x900000 + 0x108
/-- FW_STATUS (R417 Table 15.6 (15)). -/
abbrev FW_STATUS : Nat := 0x900000 + 0x200
/-- FW_EVCNT (R417 Table 15.6 (15)). -/
abbrev FW_EVCNT : Nat := 0x900000 + 0x208
/-- FW_MIN_SVN (R417 Table 15.6 (15)). -/
abbrev FW_MIN_SVN : Nat := 0x900000 + 0x210
/-- ICE_STATUS (R417 Table 15.6 (15)). -/
abbrev ICE_STATUS : Nat := 0x900000 + 0x300
/-- ICE_EVCNT (R417 Table 15.6 (15)). -/
abbrev ICE_EVCNT : Nat := 0x900000 + 0x308
/-- ICE_SEQ (R417 Table 15.6 (15)). -/
abbrev ICE_SEQ : Nat := 0x900000 + 0x310
/-- ICE_POH (R417 Table 15.6 (15)). -/
abbrev ICE_POH : Nat := 0x900000 + 0x318
/-- FROST_CTL (R417 Table 15.6 (15)). -/
abbrev FROST_CTL : Nat := 0x900000 + 0x380
/-- FROST_STATUS (R417 Table 15.6 (15)). -/
abbrev FROST_STATUS : Nat := 0x900000 + 0x388
/-- FROST_TIME (R417 Table 15.6 (15)). -/
abbrev FROST_TIME : Nat := 0x900000 + 0x390
/-- FROST_TRIG (R417 Table 15.6 (15)). -/
abbrev FROST_TRIG : Nat := 0x900000 + 0x398
/-- FROST_EVCNT (R417 Table 15.6 (15)). -/
abbrev FROST_EVCNT : Nat := 0x900000 + 0x3A0
/-- NVM_SECTOR_ERASES (R417 Table 15.6 (15)). -/
abbrev NVM_SECTOR_ERASES (i : Nat) : Nat := 0x900000 + 0x400 + i * 4
/-- DIE_MEM_CTL (R174 Table 06.6 (06)). -/
abbrev DIE_MEM_CTL (u : Nat) : Nat := Blk.base .die u + 0x200
/-- DIE_MEM_STATUS (R174 Table 06.6 (06)). -/
abbrev DIE_MEM_STATUS (u : Nat) : Nat := Blk.base .die u + 0x208
/-- DIE_MEM_EVCNT (R174 Table 06.6 (06)). -/
abbrev DIE_MEM_EVCNT (u : Nat) : Nat := Blk.base .die u + 0x210
/-- MEM_CTL (R188 Table 06.11 (06)). -/
abbrev MEM_CTL (u : Nat) : Nat := Blk.base .dctl u + 0
/-- MEM_STATUS (R188 Table 06.11 (06)). -/
abbrev MEM_STATUS (u : Nat) : Nat := Blk.base .dctl u + 8
/-- MEM_EVCNT (R188 Table 06.11 (06)). -/
abbrev MEM_EVCNT (u : Nat) : Nat := Blk.base .dctl u + 0x10
/-- MEM_PCH_RETIRED (R188 Table 06.11 (06)). -/
abbrev MEM_PCH_RETIRED (u : Nat) : Nat := Blk.base .dctl u + 0x18
/-- MEM_PCH_REBUILT (R188 Table 06.11 (06)). -/
abbrev MEM_PCH_REBUILT (u : Nat) : Nat := Blk.base .dctl u + 0x20
/-- MEM_ABSENT_WR (R188 Table 06.11 (06)). -/
abbrev MEM_ABSENT_WR (u : Nat) : Nat := Blk.base .dctl u + 0x28
/-- MEM_READS (R188 Table 06.11 (06)). -/
abbrev MEM_READS (u : Nat) : Nat := Blk.base .dctl u + 0x30
/-- CLU_SEM (R59 (02)). -/
abbrev CLU_SEM (u : Nat) (i : Nat) : Nat := Blk.base .cluster u + 0x1000 + i * 8
/-- CORE_CTL (R69 Table 02.10 (02)). -/
abbrev CORE_CTL (u : Nat) : Nat := Blk.base .core u + 0
/-- CORE_ENTRY (R69 Table 02.10 (02)). -/
abbrev CORE_ENTRY (u : Nat) : Nat := Blk.base .core u + 8
/-- CORE_STATUS (R69 Table 02.10 (02)). -/
abbrev CORE_STATUS (u : Nat) : Nat := Blk.base .core u + 0x10
/-- CORE_PC (R69 Table 02.10 (02)). -/
abbrev CORE_PC (u : Nat) : Nat := Blk.base .core u + 0x18
/-- CORE_CYCLES (R69 Table 02.10 (02)). -/
abbrev CORE_CYCLES (u : Nat) : Nat := Blk.base .core u + 0x20
/-- CORE_BUDGET (R69 Table 02.10 (02)). -/
abbrev CORE_BUDGET (u : Nat) : Nat := Blk.base .core u + 0x28
/-- CORE_BANK_STALLS (R69 Table 02.10 (02)). -/
abbrev CORE_BANK_STALLS (u : Nat) : Nat := Blk.base .core u + 0x30
/-- CORE_EVCNT (R69 Table 02.10 (02)). -/
abbrev CORE_EVCNT (u : Nat) : Nat := Blk.base .core u + 0x38
/-- CORE_QDEPTH (R69 Table 02.10 (02)). -/
abbrev CORE_QDEPTH (u : Nat) : Nat := Blk.base .core u + 0x40
/-- CORE_ARG (R69 Table 02.10 (02)). -/
abbrev CORE_ARG (u : Nat) (i : Nat) : Nat := Blk.base .core u + 0x48 + i * 8
/-- CORE_SEM (R59 (02)). -/
abbrev CORE_SEM (u : Nat) (i : Nat) : Nat := Blk.base .core u + 0x400 + i * 8
/-- HIF_SQ_TAIL (R215 Table 08.3 (08)). -/
abbrev HIF_SQ_TAIL (u : Nat) (i : Nat) : Nat := Blk.base .bar0 u + 0 + i * 0x10
/-- HIF_CQ_HEAD (R215 Table 08.3 (08)). -/
abbrev HIF_CQ_HEAD (u : Nat) (i : Nat) : Nat := Blk.base .bar0 u + 8 + i * 0x10
/-- HIF_SQ_HEAD (R215 Table 08.3 (08)). -/
abbrev HIF_SQ_HEAD (u : Nat) (i : Nat) : Nat := Blk.base .bar0 u + 0x40 + i * 0x10
/-- HIF_CQ_TAIL (R215 Table 08.3 (08)). -/
abbrev HIF_CQ_TAIL (u : Nat) (i : Nat) : Nat := Blk.base .bar0 u + 0x48 + i * 0x10
/-- HIF_HOST_VER (R215 Table 08.3 (08)). -/
abbrev HIF_HOST_VER (u : Nat) : Nat := Blk.base .bar0 u + 0x80
/-- HIF_FW_VER (R215 Table 08.3 (08)). -/
abbrev HIF_FW_VER (u : Nat) : Nat := Blk.base .bar0 u + 0x88
/-- HIF_CTL (R215 Table 08.3 (08)). -/
abbrev HIF_CTL (u : Nat) : Nat := Blk.base .bar0 u + 0x90
/-- HIF_STATUS (R215 Table 08.3 (08)). -/
abbrev HIF_STATUS (u : Nat) : Nat := Blk.base .bar0 u + 0x98
/-- HIF_FW_EPOCH (R215 Table 08.3 (08)). -/
abbrev HIF_FW_EPOCH (u : Nat) : Nat := Blk.base .bar0 u + 0xA0
/-- HIF_EVCNT (R215 Table 08.3 (08)). -/
abbrev HIF_EVCNT (u : Nat) : Nat := Blk.base .bar0 u + 0xA8
/-- MSIX_ADDR (R312 Table 11.2 (11)). -/
abbrev MSIX_ADDR (u : Nat) (i : Nat) : Nat := Blk.base .bar0 u + 0x1000 + i * 0x10
/-- MSIX_DATA (R312 Table 11.2 (11)). -/
abbrev MSIX_DATA (u : Nat) (i : Nat) : Nat := Blk.base .bar0 u + 0x1008 + i * 0x10
/-- MSIX_CTL (R312 Table 11.2 (11)). -/
abbrev MSIX_CTL (u : Nat) (i : Nat) : Nat := Blk.base .bar0 u + 0x100C + i * 0x10
/-- MSIX_PBA (R312 Table 11.2 (11)). -/
abbrev MSIX_PBA (u : Nat) : Nat := Blk.base .bar0 u + 0x1800
/-- MBX_REQ (R315 Table 11.4 (11)). -/
abbrev MBX_REQ (u : Nat) (i : Nat) : Nat := Blk.base .bar0 u + 0x2000 + i * 8
/-- MBX_RESP (R315 Table 11.4 (11)). -/
abbrev MBX_RESP (u : Nat) (i : Nat) : Nat := Blk.base .bar0 u + 0x2040 + i * 8
/-- MBX_CTL (R315 Table 11.4 (11)). -/
abbrev MBX_CTL (u : Nat) : Nat := Blk.base .bar0 u + 0x2080
/-- MBX_STATUS (R315 Table 11.4 (11)). -/
abbrev MBX_STATUS (u : Nat) : Nat := Blk.base .bar0 u + 0x2088
/-- MBX_EVENT (R315 Table 11.4 (11)). -/
abbrev MBX_EVENT (u : Nat) : Nat := Blk.base .bar0 u + 0x2090
/-- MBX_EVCNT (R315 Table 11.4 (11)). -/
abbrev MBX_EVCNT (u : Nat) : Nat := Blk.base .bar0 u + 0x2098
/-- INST_STATE (R315 Table 11.4 (11)). -/
abbrev INST_STATE (u : Nat) (i : Nat) : Nat := Blk.base .bar0 u + 0x20A0 + i * 8
/-- DIE_CLK_CTL (R18 Table 01.3 (01); the spec gives no address). -/
abbrev DIE_CLK_CTL (u : Nat) : Nat := Blk.base .clkd u + 0
/-- DIE_CLK_STATUS (R18 Table 01.3 (01); the spec gives no address). -/
abbrev DIE_CLK_STATUS (u : Nat) : Nat := Blk.base .clkd u + 8

/-- Word 0 and word 1 of window `r` of a core (Table 07.8). -/
abbrev CORE_WINDOW (u r w : Nat) : Nat := Blk.base .core u + 0xC00 + r * 0x10 + w * 8
/-- Word 0 and word 1 of window `r` of a cluster (Table 07.8). -/
abbrev CLU_WINDOW (u r w : Nat) : Nat := Blk.base .cluster u + 0x3000 + r * 0x10 + w * 8

end Reg

end Sys2Proof.Machine
end

