-- ==== Sys2Proof/Machine/Ops.lean ====
section
/-! DEFINITION. The named operations every meaning is written over: register fields, W1C flags and event counters
(R34-R36), open values, outputs and notices, units, and memory bytes and words with poison (R7, R26). -/

namespace Sys2Proof.Machine

/-- What a meaning answers. -/
abbrev Result := Host.Outcome State Fault Refusal

/-! ### Registers -/

/-- The value of the register at key `a` (its reset value until something sets it). -/
def rd (s : State) (a : Nat) : Word := Tab.get (regReset a) s.regs a

/-- The state with register `a` holding `v`. -/
def wr (s : State) (a : Nat) (v : Word) : State := { s with regs := Tab.set s.regs a v }

/-- A register's value as a number. -/
def rdn (s : State) (a : Nat) : Nat := (rd s a).toNat

/-- A register set from a number. -/
def wrn (s : State) (a n : Nat) : State := wr s a (BitVec.ofNat 64 n)

/-- The field `REG[hi:lo]`. -/
def rdf (s : State) (a hi lo : Nat) : Nat := fld (rd s a) hi lo

/-- The field `REG[hi:lo]` set to `x`. -/
def wrf (s : State) (a hi lo x : Nat) : State := wr s a (setFld (rd s a) hi lo x)

/-- Bit `i` of a register. -/
def rdb (s : State) (a i : Nat) : Bool := bit (rd s a) i

/-- Bit `i` of a register set to `b`. -/
def wrb (s : State) (a i : Nat) (b : Bool) : State := wr s a (setBit (rd s a) i b)

/-- A counter register of `w` bits that wraps. -/
def incWrap (s : State) (a w n : Nat) : State := wrn s a ((rdn s a + n) % 2 ^ w)

/-- A counter register of `w` bits that saturates. -/
def incSat (s : State) (a w n : Nat) : State := wrn s a (satAdd w (rdn s a) n)

/-- Hardware sets W1C flags of the register `st`; its event counter `ev` counts one per flag, flags that are already
1 included (R36). -/
def hwSet (s : State) (st ev : Nat) (mask : Word) : State :=
  incWrap (wr s st (rd s st ||| mask)) ev 32 (popcount mask)

/-- Hardware sets one W1C flag. -/
def hwSetBit (s : State) (st ev i : Nat) : State := hwSet s st ev (oneBit i)

/-! ### Open values, outputs, notices, time -/

/-- The next open value (log entry 2). -/
def freshVal (s : State) : Word := Config.freeWord s.free

/-- The state after an open value has been drawn. -/
def drawn (s : State) : State := { s with free := s.free + 1 }

/-- Something leaves the block. -/
def emit (s : State) (o : Out) : State := { s with out := o :: s.out }

/-- A party inside the device is told of something. -/
def notify (s : State) (whom what : String) (arg : Nat) : State := emit s (.notice whom what arg)

/-- Snowline time in ns (R348). -/
def now (s : State) : Word := rd s Reg.SNOW_NS

/-- Snowline time as a number. -/
def nowN (s : State) : Nat := (now s).toNat

/-- The low 32 bits of Snowline time (Tables 01.8, 06.10). -/
def now32 (s : State) : Nat := nowN s % 2 ^ 32

/-! ### Units (R13) -/

def getCore (s : State) (n : Nat) : CoreSt := Tab.get {} s.cores n
def setCore (s : State) (n : Nat) (c : CoreSt) : State := { s with cores := Tab.set s.cores n c }
def updCore (s : State) (n : Nat) (f : CoreSt → CoreSt) : State := setCore s n (f (getCore s n))

def getClu (s : State) (c : Nat) : ClusterSt := Tab.get {} s.clusters c
def setClu (s : State) (c : Nat) (x : ClusterSt) : State := { s with clusters := Tab.set s.clusters c x }

def getDie (s : State) (d : Nat) : DieSt := Tab.get {} s.dies d
def setDie (s : State) (d : Nat) (x : DieSt) : State := { s with dies := Tab.set s.dies d x }

/-- The local index of a cluster's core, its cluster and its die (R13). -/
def clusterOf (core : Nat) : Nat := core / 8
def dieOfCluster (c : Nat) : Nat := c / 4
def dieOfCore (core : Nat) : Nat := core / 32

/-- The other core of a twin pair (R13). -/
def twinOf (core : Nat) : Nat := if core % 2 = 0 then core + 1 else core - 1

/-- A die is parked when its bit stands in PWR_MODE.PARKED (R21, R417). -/
def parked (s : State) (d : Nat) : Bool := rdb s Reg.PWR_MODE (6 + d)

/-- CCLK of a compute die is gated: while its divider changes, parked, in Idle, or by a cut of its clock or power
(R18, R21, R401, R338). Die 4 has no CCLK. -/
def cclkGated (s : State) (d : Nat) : Bool :=
  decide (d < 4) && ((getDie s d).cdivBusy || parked s d || rdf s Reg.PWR_MODE 2 0 == 3
    || s.power.clkCut.contains d || s.power.pwrCut.contains d)

/-- A running kernel occupies the core. -/
def running (s : State) (n : Nat) : Bool := rdb s (Reg.CORE_STATUS n) 0

/-! ### SAFE_HOLD (R252) -/

/-- The SAFE_HOLD pin is driven to hold while any cause stands or both pairs are lost. -/
def holdPin (s : State) : State :=
  wrb s Reg.SERAC_HOLD 31 (decide (rdf s Reg.SERAC_HOLD 6 0 ≠ 0) || decide (2 ≤ s.serac.lost.length))

/-- A cause of SAFE_HOLD requested or released: 0 START, 1 INJECT, 2 TASK, 3 BANDWIDTH, 4 SERAC, 5 STANDBY, 6
DEVICE (Table 09.10). -/
def hold (s : State) (cause : Nat) (on : Bool) : State := holdPin (wrb s Reg.SERAC_HOLD cause on)

/-! ### Frost triggers (R414) -/

/-- A trigger reaches the snapshot logic: 0 debug, 1 Serac, 2 compare, 3 management. It is taken while ARMED is 1 and
its enable stands. -/
def frostHit (s : State) (src : Nat) : State :=
  if rdb s Reg.FROST_STATUS 0 ∧ rdb s Reg.FROST_CTL (1 + src) ∧ ¬ Nat.testBit s.power.frostTrig src then
    { s with power := { s.power with frostTrig := s.power.frostTrig + 2 ^ src } }
  else s

/-- A Serac event that SERAC_MASK may select: 0 UC report, 1 FE report, 2 twin mismatch, 3 restart order, 4 task miss,
5 CLASS0_SHORT. -/
def frostSerac (s : State) (ev : Nat) : State := if rdb s Reg.FROST_CTL (16 + ev) then frostHit s 1 else s

/-! ### Memory (R7, R26, R164) -/

/-- A byte of device memory; an address nothing is listed for reads 0 (R174; log entry 1 for DRAM). -/
def memByte (m : List Host.Cell) (a : Nat) : Byte := Tab.get 0 m a

/-- The memory with one byte written; a zero byte is not listed. -/
def memSet (m : List Host.Cell) (a : Nat) (b : Byte) : List Host.Cell :=
  if b = 0 then Tab.del m a else Tab.set m a b

/-- The canonical form of a memory: addresses strictly rising, no zero byte listed. -/
def Memory.wf (m : List Host.Cell) : Bool := Tab.sorted m && m.all (fun e => e.2 != 0)

def getByte (s : State) (a : Nat) : Byte := memByte s.mem a
def setByte (s : State) (a : Nat) (b : Byte) : State := { s with mem := memSet s.mem a b }

/-- The bytes written from `a` upwards. -/
def memSetList (m : List Host.Cell) : Nat → List Byte → List Host.Cell
  | _, [] => m
  | a, b :: bs => memSetList (memSet m a b) (a + 1) bs

/-- Is the 64-bit word that holds byte address `a` poisoned? -/
def poisonAt (s : State) (a : Nat) : Bool := s.poison.contains (a / 8)

/-- The poison bit of the word that holds byte address `a`. -/
def setPoison (s : State) (a : Nat) (p : Bool) : State :=
  { s with poison := if p then NatSet.ins (a / 8) s.poison else NatSet.rem (a / 8) s.poison }

/-- The 64-bit word at an 8-byte aligned address, with its poison bit. -/
def getWord (s : State) (a : Nat) : PWord :=
  ⟨BitVec.ofNat 64 (ofBytesLE ((List.range 8).map (fun i => getByte s (a + i)))), poisonAt s a⟩

/-- The 64-bit word at an 8-byte aligned address written with its poison bit. -/
def setWord (s : State) (a : Nat) (w : PWord) : State :=
  setPoison { s with mem := memSetList s.mem a (bytesLE 8 w.v.toNat) } a w.p

/-- Words at consecutive 8-byte addresses. -/
def getWords (s : State) (a n : Nat) : List PWord := (List.range n).map (fun i => getWord s (a + 8 * i))

def setWords (s : State) : Nat → List PWord → State
  | _, [] => s
  | a, w :: ws => setWords (setWord s a w) (a + 8) ws

/-- `n` bytes from any address. -/
def getBytes (s : State) (a n : Nat) : List Byte := (List.range n).map (fun i => getByte s (a + i))

/-- A little-endian number of `n` bytes. -/
def getNum (s : State) (a n : Nat) : Nat := ofBytesLE (getBytes s a n)

/-- Is any word of the `n` bytes from `a` poisoned? -/
def anyPoison (s : State) (a n : Nat) : Bool :=
  (List.range (if n = 0 then 0 else (a + n - 1) / 8 - a / 8 + 1)).any (fun i => s.poison.contains (a / 8 + i))

/-- Bytes written from any address, each with the poison of the word it came from: a word written in part keeps a
poison bit it had, a word written whole takes the bits of its new bytes (R26). -/
def setBytesP (s : State) (a : Nat) (bs : List (Byte × Bool)) : State :=
  let s1 := { s with mem := memSetList s.mem a (bs.map (·.1)) }
  let n := bs.length
  forUpTo (if n = 0 then 0 else (a + n - 1) / 8 - a / 8 + 1) (fun i t =>
    let w := a / 8 + i
    let lo := if w * 8 < a then a else w * 8
    let hi := if w * 8 + 8 < a + n then w * 8 + 8 else a + n
    let new := ((bs.drop (lo - a)).take (hi - lo)).any (·.2)
    let old := s.poison.contains w
    setPoison t (w * 8) (if hi - lo = 8 then new else new || old)) s1

/-- Plain bytes written clean. -/
def setBytes (s : State) (a : Nat) (bs : List Byte) : State := setBytesP s a (bs.map (fun b => (b, false)))

/-- A number written as `n` little-endian bytes. -/
def setNum (s : State) (a n x : Nat) : State := setBytes s a (bytesLE n x)

/-! ### The address map (Tables 06.1, 06.2) -/

/-- Where an address of the device address space leads (R164-R166). -/
inductive Place where
  | reg
  | coreStore (n off : Nat)
  | instrStore (n off : Nat)
  | clusterStore (c off : Nat)
  | dram (d off : Nat)
  | unmapped
deriving DecidableEq, Repr

def coreStoreBase (n : Nat) : Nat :=
  if n < 128 then 0x104000000 + n / 32 * 0x40000000 + n % 32 * 0x100000
  else 0x2000000000000 + (n - 128) * 0x100000
def instrStoreBase (n : Nat) : Nat :=
  if n < 128 then 0x106000000 + n / 32 * 0x40000000 + n % 32 * 0x10000
  else 0x2000010000000 + (n - 128) * 0x10000
def clusterStoreBase (c : Nat) : Nat := 0x108000000 + c / 4 * 0x40000000 + c % 4 * 0x800000
def dramBase : Nat := 0x10000000000

/-- Where an address leads. The hub's register space is taken whole as defined blocks (log entry 5). -/
def placeOf (a : Nat) : Place :=
  if a < 0x10000000 then .reg
  else if a < 0x100000000 then .unmapped
  else if a < 0x200000000 then
    let d := (a - 0x100000000) / 0x40000000
    let x := (a - 0x100000000) % 0x40000000
    if x < 0x30000 ∨ (0x100000 ≤ x ∧ x < 0x140000) ∨ (0x200000 ≤ x ∧ x < 0x400000) then .reg
    else if 0x4000000 ≤ x ∧ x < 0x6000000 then
      .coreStore (32 * d + (x - 0x4000000) / 0x100000) ((x - 0x4000000) % 0x100000)
    else if 0x6000000 ≤ x ∧ x < 0x6200000 then
      .instrStore (32 * d + (x - 0x6000000) / 0x10000) ((x - 0x6000000) % 0x10000)
    else if 0x8000000 ≤ x ∧ x < 0xA000000 then
      .clusterStore (4 * d + (x - 0x8000000) / 0x800000) ((x - 0x8000000) % 0x800000)
    else .unmapped
  else if 0x10000000000 ≤ a ∧ a < 0x12000000000 then
    .dram ((a - 0x10000000000) / 0x800000000) ((a - 0x10000000000) % 0x800000000)
  else .unmapped

end Sys2Proof.Machine
end

