-- ==== Sys2Proof/Machine/Errors.lean ====
section
/-! DEFINITION. Error blocks (R25, R29-R33, R435): recording an error of any class, capturing the first record, and
queueing the report of a UC or FE that ERROR_REPORT later delivers. -/

namespace Sys2Proof.Machine

/-- The code of a class (Table 01.8). -/
def clsCode : ErrClass → Nat
  | .ce => 1
  | .de => 2
  | .uc => 3
  | .fe => 4

/-- The number of a level, engine 0 to package 4 (Table 01.1). -/
def levelNo : Level → Nat
  | .engine => 0
  | .core => 1
  | .cluster => 2
  | .die => 3
  | .package => 4

/-- The enclosing level of a unit: level, unit and child index there (Tables 01.1, 01.8). -/
def parentOf (l : Level) (u : Nat) : Option (Level × Nat × Nat) :=
  match l with
  | .engine => some (.core, u / 5, u % 5)
  | .core => some (.cluster, u / 8, u % 8)
  | .cluster => some (.die, u / 4, u % 4)
  | .die => some (.package, 0, u)
  | .package => none

/-- The die a unit lies on; the package has none (R14). -/
def dieOfUnit (l : Level) (u : Nat) : Option Nat :=
  match l with
  | .engine => some (u / 160)
  | .core => some (u / 32)
  | .cluster => some (u / 4)
  | .die => some u
  | .package => none

/-- A live Icecore accumulator (Table 15.5), saturating at `w` bits. -/
def iceAdd (s : State) (off w n : Nat) : State :=
  { s with power := { s.power with ice := { s.power.ice with
      acc := Tab.upd 0 s.power.ice.acc off (fun x => satAdd w x n) } } }

/-- One of the last 64 events of the Icecore record (Table 15.5). -/
def iceEvent (s : State) (kind unit src : Nat) : State :=
  { s with power := { s.power with ice := { s.power.ice with
      events := (⟨kind, unit, src, now s⟩ :: s.power.ice.events).take 64 } } }

/-- One event recorded in a unit's error block: SRC_LAST, the class flag, the counts with CE_THRESH, the first
record while FIRST_VALID is 0, and ESC_IN for a fault passed up (Tables 01.6-01.8, R30, R32). -/
def errRecord (s : State) (l : Level) (u : Nat) (cls : ErrClass) (src addr : Nat) (esc : Bool) (child : Nat)
    (inj : Bool) : State :=
  let st := Reg.ERR_STATUS l u
  let cnt := Reg.ERR_COUNT l u
  let s := wrf s st 23 16 src
  let fatal := cls = .uc ∨ cls = .fe
  let first := fatal ∧ rdb s st 6 = false
  let ce := rdf s cnt 15 0
  let ce' := if cls = .ce then satAdd 16 ce 1 else ce
  let limit := rdf s (Reg.ERR_CTL l u) 15 0
  let thresh := limit ≠ 0 ∧ ce < limit ∧ limit ≤ ce'
  let s := wrf s cnt 15 0 ce'
  let s := if cls = .de then wrf s cnt 31 16 (satAdd 16 (rdf s cnt 31 16) 1) else s
  let s := if first then
      wr (wrn s (Reg.ERR_FIRST_INFO l u)
        (clsCode cls + b2n esc * 8 + src * 16 + child * 4096 + b2n inj * 524288 + now32 s * 4294967296))
        (Reg.ERR_FIRST_ADDR l u) (BitVec.ofNat 64 addr)
    else s
  let s := hwSet s st (Reg.ERR_EVCNT l u)
    (oneBit (clsCode cls - 1) ||| (if first then oneBit 6 else 0) ||| (if thresh then oneBit 4 else 0)
      ||| (if esc then oneBit 5 else 0))
  let s := if thresh ∧ rdb s (Reg.ERR_CTL l u) 16 = true then
      notify s (if l = .package then "service processor" else "die controller") "CE_THRESH" (errBase l u) else s
  if inj then s else iceAdd s (0x100 + ((clsCode cls - 1) * 5 + levelNo l) * 8) 64 1

/-- What the hardware itself does at once on a UC or FE: an engine drops its queue, and the core stops issue with
UC_STOP (Tables 01.9, 02.9). -/
def stopCore (s : State) (n : Nat) : State :=
  hwSetBit (updCore s n (fun c => { c with stopped := true })) (Reg.CORE_STATUS n) (Reg.CORE_EVCNT n) 6

/-- The queue of engine `e` of a core emptied. -/
def dropQueue (c : CoreSt) (e : Nat) : CoreSt :=
  match e with
  | 0 => { c with qm := [] }
  | 1 => { c with qv := [] }
  | 2 => { c with qw := [] }
  | 3 => { c with qa := [] }
  | _ => { c with qc := [] }

/-- A pass ends with a status (R393): every program stops and nothing more of it is drawn; PASS_DONE tells of it. A
status that raises a class sets CORNICE_STATUS.FAULT. -/
def passStop (s : State) (status : Nat) : State :=
  match s.cornice.pass with
  | none => s
  | some p =>
    if p.phase = .ending then s
    else
      let s := forUpTo 8 (fun k t => wrb (updCore t (128 + k) (fun c => { c with
        qv := [], qc := [], hold := .none, loops := [], stopped := false })) (Reg.CORE_STATUS (128 + k)) 0 false) s
      let s := { s with cornice := { s.cornice with rcs := [], pass := some { p with phase := .ending, status := status } } }
      if status = 1 ∨ status = 2 then hwSetBit s Reg.CORNICE_STATUS Reg.CORNICE_EVCNT 2 else s

/-- A unit detects an error (R25): the record, the immediate containment of an engine or core fault, and the report
of a UC or FE (R31). A render core's fault is the package's UC 0x97 and ends the pass (R393). -/
def detect (s : State) (l : Level) (u : Nat) (cls : ErrClass) (src addr : Nat) : State :=
  if (l = .engine ∧ 640 ≤ u) ∨ (l = .core ∧ 128 ≤ u) then
    let s := passStop (errRecord s .package 0 .uc 0x97 addr false 0 false) 2
    { s with reports := s.reports ++ [⟨.package, 0, .uc, 0x97, addr, false⟩] }
  else
    let s := errRecord s l u cls src addr false 0 false
    if cls = .uc ∨ cls = .fe then
      let s := match l with
        | .engine => stopCore (updCore s (u / 5) (fun c => dropQueue c (u % 5))) (u / 5)
        | .core => stopCore s u
        | _ => s
      { s with reports := s.reports ++ [⟨l, u, cls, src, addr, false⟩] }
    else s

/-- Poisoned data consumed where poison cannot travel on (R27): UC 0x21 at the core, which stops issue. -/
def poisonConsumed (s : State) (n addr : Nat) : State := detect s .core n .uc 0x21 addr

/-- The rows of Table 01.10: code, level, and whether CE, DE, UC, FE are in its Class column. -/
def sourceRows : List (Nat × Level × List ErrClass) :=
  [ (0x01, .engine, [.uc, .fe]), (0x02, .engine, [.uc, .fe]), (0x03, .engine, [.uc, .fe]),
    (0x21, .core, [.uc]), (0x22, .core, [.uc]), (0x23, .core, [.uc]), (0x24, .core, [.uc]), (0x25, .core, [.uc]),
    (0x28, .core, [.ce]), (0x29, .core, [.de]), (0x2A, .core, [.ce]),
    (0x41, .cluster, [.uc, .fe]), (0x42, .cluster, [.uc]), (0x43, .cluster, [.uc]), (0x44, .cluster, [.uc]),
    (0x48, .cluster, [.ce]), (0x49, .cluster, [.de]),
    (0x61, .die, [.uc, .fe]), (0x62, .die, [.uc]), (0x63, .die, [.uc, .fe]), (0x64, .die, [.uc, .fe]),
    (0x68, .die, [.ce]), (0x69, .die, [.de]), (0x6A, .die, [.de]), (0x6B, .die, [.fe]), (0x6C, .die, [.fe]) ]
  ++
  [ (0x81, .package, [.fe]), (0x82, .package, [.fe]), (0x83, .package, [.fe]), (0x84, .package, [.uc, .fe]),
    (0x85, .package, [.fe]), (0x86, .package, [.fe]), (0x87, .package, [.fe]), (0x88, .package, [.fe]),
    (0x89, .package, [.fe]), (0x8A, .package, [.fe]), (0x90, .package, [.uc]), (0x91, .package, [.de]),
    (0x92, .package, [.uc]), (0x93, .package, [.uc]), (0x94, .package, [.uc]), (0x95, .package, [.de]),
    (0x96, .package, [.uc]), (0x97, .package, [.uc]), (0xA0, .package, [.ce]), (0xA1, .package, [.ce]),
    (0xA2, .package, [.ce]), (0xA3, .package, [.uc]), (0xA4, .package, [.uc]), (0xA5, .package, [.uc]) ]

/-- A class code as a class (R435). -/
def clsOfCode : Nat → Option ErrClass
  | 1 => some .ce
  | 2 => some .de
  | 3 => some .uc
  | 4 => some .fe
  | _ => none

/-- May source `src` be injected at level `l` in class `c` (R435)? -/
def sourceValid (l : Level) (src : Nat) (c : ErrClass) : Bool :=
  sourceRows.any (fun r => r.1 == src && decide (r.2.1 = l) && r.2.2.contains c)

/-- An accepted injection (R435): recorded and reported with INJECTED, neither contained nor passed up. -/
def inject (s : State) (l : Level) (u : Nat) (cls : ErrClass) (src : Nat) : State :=
  let s := errRecord s l u cls src 0 false 0 true
  if cls = .uc ∨ cls = .fe then { s with reports := s.reports ++ [⟨l, u, cls, src, 0, true⟩] } else s

end Sys2Proof.Machine
end

