-- ==== Sys2Proof/Machine/Access.lean ====
section
/-! DEFINITION. Register access (R8-R11): who may write each block, what a write of each access code does, what a
read returns, and the registers whose read value is computed from other state. -/

namespace Sys2Proof.Machine

/-- Is the requester's request secure (Table 12.3)? The debug port is secure while a secure enable stands (R335). -/
def isSecure (s : State) : Requester → Bool
  | .serac => true
  | .firn => true
  | .rime _ .secure => true
  | .chan _ sec => sec
  | .debug => rdb s Reg.SEC_DBG 2 || rdb s Reg.SEC_DBG 3
  | _ => false

/-- The enclave tag a request carries (R332). -/
def enclTag : Requester → Option Nat
  | .rime _ (.enclave n) => some n
  | _ => none

/-- Is the requester firmware, and in which processor? -/
def rimeOf : Requester → Option Nat
  | .rime p _ => some p
  | _ => none

/-- Invasive debug of the world a block belongs to (R335). -/
def debugMay (s : State) (secureBlock : Bool) : Requester → Bool
  | .debug => if secureBlock then rdb s Reg.SEC_DBG 2 else rdb s Reg.SEC_DBG 0
  | _ => false

/-- Is the requester the secure world of processor `p`? -/
def isSecRime (p : Nat) : Requester → Bool
  | .rime q .secure => q == p
  | _ => false

/-- May the requester write a register of the block (R59, R69, R163, R188, R191, R208, R215, R244, R279, R306, R312,
R346, R366, R373, R394, R417)? -/
def mayWrite (s : State) (who : Requester) (b : Blk) (u off : Nat) : Bool :=
  match b with
  | .hubId => (rimeOf who == some 3) || decide (who = .serac) || debugMay s false who
  | .sec => (match who with | .rime _ .secure => true | _ => false) || debugMay s true who
  | .firn => (rimeOf who).isSome || debugMay s false who
  | .hmov => (match who with | .rime p _ => decide (p < 4) | _ => false) || debugMay s false who
  | .drift => (rimeOf who).isSome || debugMay s false who
  | .rime => isSecRime u who || decide (who = .serac) || debugMay s true who
  | .serac => decide (who = .serac)
  | .snow =>
    if 0x600 ≤ off ∧ off < 0x700 then (rimeOf who == some 0) || debugMay s false who
    else (rimeOf who == some 1) || debugMay s false who
  | .stream => (rimeOf who == some 1) || debugMay s false who
  | .gateway => (rimeOf who == some 1) || debugMay s false who
  | .baseth => isSecRime 2 who || debugMay s true who
  | .cornice => (rimeOf who == some 3) || debugMay s false who
  | .power =>
    if off = 0x18 ∨ off = 0x20 then rimeOf who == some 3
    else if off = 0x398 then decide (who = .debug)
    else isSecRime 3 who
  | .die => (rimeOf who == some (4 + u)) || debugMay s false who
  | .dctl => (rimeOf who == some (4 + u / 2)) || decide (who = .serac) || debugMay s false who
  | .cluster => (rimeOf who == some (4 + u / 4)) || debugMay s false who
  | .core => (rimeOf who == some (4 + u / 32)) || debugMay s false who
  | .bar0 => decide (who = .host u) || (rimeOf who == some 0)
  | .clkd => (rimeOf who == some (4 + u)) || debugMay s false who

/-- The signal bit of SEC_PIN that guards a register of the Snowline block (R336): TRIG, frame-sync and capture
configuration. -/
def secPinBit (off : Nat) : Option Nat :=
  if 0x300 ≤ off ∧ off < 0x380 then some ((off - 0x300) / 8)
  else if 0x380 ≤ off ∧ off < 0x400 then some (24 + (off - 0x380) / 8)
  else if 0x400 ≤ off ∧ off < 0x500 then some (16 + (off - 0x400) / 0x20)
  else none

/-- Is the compare unit bound to a signal whose SEC_PIN bit is set (R336)? -/
def unitSecure (s : State) (u : Nat) : Bool :=
  (List.range 16).any (fun k =>
    (rdb s Reg.SEC_PIN k && rdb s (Reg.TRIG_CFG k) 1 && rdf s (Reg.TRIG_CFG k) 6 3 == u) ||
    (rdb s Reg.SEC_PIN (24 + k) && rdb s (Reg.FSYNC_CFG k) 1 && rdf s (Reg.FSYNC_CFG k) 6 3 == u))

/-- Does SEC_PIN keep this register from a requester that is not secure (R336)? -/
def pinHidden (s : State) (who : Requester) (b : Blk) (off : Nat) : Bool :=
  match b with
  | .snow => !isSecure s who && (if 0x100 ≤ off ∧ off < 0x300 then unitSecure s ((off - 0x100) / 0x20)
      else (match secPinBit off with
        | some i => rdb s Reg.SEC_PIN i
        | none => false))
  | _ => false

/-- Is an RWL register locked (R9)? -/
def rwlLocked (s : State) (b : Blk) (off : Nat) (a : Nat) : Bool :=
  match b with
  | .sec => off == 0 && rdb s a 63
  | .firn => (off == 0x18 || off == 0x20 || off == 0x28) && rdb s Reg.FIRN_CTL 2
  | .rime => off == 0x10 && rdb s a 31
  | _ => false

/-- The bits of a field that a write leaves alone because the value written there is a reserved encoding (R11). -/
def reservedWrite (b : Blk) (off : Nat) (v : Word) : Word :=
  match b with
  | .baseth => if 0x100 ≤ off ∧ off < 0x300 ∧ (off - 0x100) % 0x40 = 0 ∧ fld v 2 1 = 3 then maskOf 2 1 else 0
  | .rime => if off = 0x10 ∧ fld v 23 0 = 0 then maskOf 23 0 else 0
  | .power => if off = 0x380 ∧ 11 < fld v 8 5 then maskOf 8 5 else 0
  | .snow =>
    if 0x300 ≤ off ∧ off < 0x400 ∧ 11 < fld v 6 3 then maskOf 6 3
    else if 0x100 ≤ off ∧ off < 0x300 ∧ off % 0x20 = 0 ∧ fld v 23 8 = 0 then maskOf 23 8
    else 0
  | _ => 0

/-- The key of a channel in `State.chans`. -/
def chanKey : ChanId → Nat
  | .core n ch => n * 8 + ch
  | .cluster c ch => 2048 + c * 16 + ch
  | .hub ch => 4096 + ch

/-- The channel a register belongs to and its offset in the channel's block (Table 07.1). -/
def chanAt (b : Blk) (u off : Nat) : Option (ChanId × Nat) :=
  match b with
  | .core => if 0xD00 ≤ off ∧ off < 0xF00 then some (.core u ((off - 0xD00) / 0x40), off % 0x40) else none
  | .cluster => if 0x3100 ≤ off ∧ off < 0x3500 then some (.cluster u ((off - 0x3100) / 0x40), off % 0x40) else none
  | .hmov => if 0x100 ≤ off ∧ off < 0x900 then some (.hub ((off - 0x100) / 0x40), off % 0x40) else none
  | _ => none

/-- A write to a channel's address or count registers is ignored while the channel is busy (R190). -/
def chanHeld (s : State) (b : Blk) (u off : Nat) : Bool :=
  match chanAt b u off with
  | some (c, 0) => rdb s (Reg.MV_STATUS c) 0
  | some (c, 8) => rdb s (Reg.MV_STATUS c) 0
  | some (c, 0x10) => rdb s (Reg.MV_STATUS c) 0
  | some (c, 0x20) => rdb s (Reg.MV_STATUS c) 0 || rdb s (Reg.MV_STATUS c) 1
  | _ => false

/-- MV_CTL.SECURE takes a value from the secure world only (Table 07.3). -/
def secureOnly (s : State) (who : Requester) (b : Blk) (u off : Nat) : Word :=
  match chanAt b u off with
  | some (_, 0x18) => if isSecure s who then 0 else oneBit 30
  | _ => 0

/-- What MV_SRC, MV_DST or MV_COUNT reads while its channel is busy: the current row's next source and destination
address and its remaining bytes (R190). -/
def chanOverlay (s : State) (c : ChanId) (off : Nat) : Option Word :=
  if rdb s (Reg.MV_STATUS c) 0 then
    match (Tab.get ({} : ChanSt) s.chans (chanKey c)).fin with
    | none => none
    | some d =>
      let total := d.rows * d.rowBytes
      let moved := total - (Tab.get ({} : ChanSt) s.chans (chanKey c)).left
      let row := if moved = total then d.rows - 1 else moved / d.rowBytes
      let col := if moved = total then d.rowBytes else moved % d.rowBytes
      if off = 0 then some (BitVec.ofNat 64 (d.src + row * d.srcPitch + col))
      else if off = 8 then some (BitVec.ofNat 64 (d.dst + row * d.dstPitch + col))
      else if off = 0x10 then some (BitVec.ofNat 64 (d.rowBytes - col))
      else none
  else none

/-- The register at an address and whether the address names its high half (R8). -/
def regKey (a : Nat) : Option (Nat × Bool) :=
  match regInfo a with
  | some _ => some (a, false)
  | none => match regInfo (a - 4) with
    | some (_, _, r) => if r.width = 64 ∧ 4 ≤ a then some (a - 4, true) else none
    | none => none

/-- The part of a register a write of `width` bits covers, with the value placed there. -/
def writePart (hi : Bool) (width : Nat) (v : Word) : Word × Word :=
  if hi then (maskOf 63 32, v <<< 32)
  else if width = 64 then (BitVec.allOnes 64, v)
  else (maskOf 31 0, v &&& maskOf 31 0)

/-- A register write by its access code (R9, R11): RW bits take the value, W1C bits written as 1 clear, every other
bit stays; reserved encodings, locked registers and requesters without the right change nothing. A write of half a
64-bit register leaves the other half alone (log entry 7). -/
def regWrite (s : State) (who : Requester) (a width : Nat) (v : Word) : State :=
  match regKey a with
  | none => s
  | some (k, hi) =>
    match regInfo k with
    | none => s
    | some (b, u, r) =>
      let off := k - b.base u
      if mayWrite s who b u off ∧ ¬ rwlLocked s b off k ∧ ¬ pinHidden s who b off ∧ ¬ chanHeld s b u off then
        let (m, x) := writePart hi width v
        let rw := r.rw &&& m &&& ~~~ reservedWrite b off x &&& ~~~ secureOnly s who b u off
        let w1c := r.w1c &&& m
        wr s k (((rd s k &&& ~~~ rw) ||| (x &&& rw)) &&& ~~~ (x &&& w1c))
      else s

/-- Depth of the five engine queues (Table 02.10). -/
def qdepth (c : CoreSt) : Word :=
  BitVec.ofNat 64 (c.qm.length + c.qv.length * 256 + c.qw.length * 65536 + c.qa.length * 16777216
    + c.qc.length * 4294967296)

/-- The entry at the head of a capture FIFO (R357). -/
def capHead (s : State) (c : Nat) : Option CapEnt := (Tab.get [] s.snow.caps c).head?

/-- The entry at the head of a timestamp queue (R370). -/
def tsqHead (s : State) (p : Nat) : Option TsEnt := (Tab.get [] s.gateway.tsq p).head?

/-- The value a read of the register at key `a` returns: what it holds, or for a register that shows a queue, what
the queue holds (R69, R357, R360, R370). -/
def regValue (s : State) (a : Nat) : Word :=
  match blkOf a with
  | some (.core, u, off) =>
    if off = 0x40 then qdepth (getCore s u)
    else (match chanAt .core u off with
      | some (c, o) => (chanOverlay s c o).getD (rd s a)
      | none => rd s a)
  | some (.cluster, u, off) =>
    (match chanAt .cluster u off with
      | some (c, o) => (chanOverlay s c o).getD (rd s a)
      | none => rd s a)
  | some (.hmov, u, off) =>
    (match chanAt .hmov u off with
      | some (c, o) => (chanOverlay s c o).getD (rd s a)
      | none => rd s a)
  | some (.snow, _, off) =>
    if 0x400 ≤ off ∧ off < 0x500 then
      let c := (off - 0x400) / 0x20
      if off % 0x20 = 8 then (match capHead s c with | some e => e.ns | none => 0)
      else if off % 0x20 = 0x10 then (match capHead s c with
        | some e => BitVec.ofNat 64 (e.frac + b2n e.rising * 65536 + 2147483648)
        | none => 0)
      else rd s a
    else if 0x600 ≤ off ∧ off < 0x700 ∧ off % 0x40 = 0x30 then
      setFld (rd s a) 4 0 (Tab.get [] s.snow.ttq ((off - 0x600) / 0x40)).length
    else rd s a
  | some (.gateway, _, off) =>
    if 0x800 ≤ off ∧ off < 0x9A0 then
      let p := (off - 0x800) / 0x20
      if off % 0x20 = 0 then (match tsqHead s p with | some e => e.ns | none => 0)
      else if off % 0x20 = 8 then (match tsqHead s p with
        | some e => BitVec.ofNat 64 (e.frac + e.frameId * 65536 + 4294967296)
        | none => 0)
      else if off % 0x20 = 0x10 then BitVec.ofNat 64 (Tab.get [] s.gateway.tsq p).length
      else rd s a
    else rd s a
  | _ => rd s a

/-- What a read of this register does besides: CAP_INFO and TSQ_INFO pop a queue, SNOW_NS latches the fraction
(R349). -/
def popRead (s : State) (a : Nat) : State :=
  match blkOf a with
  | some (.snow, _, off) =>
    if off = 0x18 then wrn s Reg.SNOW_FRAC (s.snow.sub.toNat / 2 ^ 24)
    else if 0x400 ≤ off ∧ off < 0x500 ∧ off % 0x20 = 0x10 then
      { s with snow := { s.snow with caps := Tab.upd [] s.snow.caps ((off - 0x400) / 0x20) List.tail } }
    else s
  | some (.gateway, _, off) =>
    if 0x800 ≤ off ∧ off < 0x9A0 ∧ off % 0x20 = 8 then
      { s with gateway := { s.gateway with tsq := Tab.upd [] s.gateway.tsq ((off - 0x800) / 0x20) List.tail } }
    else s
  | _ => s

/-- May the requester see the register (R336)? A hidden one reads 0. -/
def visible (s : State) (who : Requester) (a : Nat) : Bool :=
  match blkOf a with
  | some (b, _, off) => !pinHidden s who b off
  | none => true

/-- A whole-register read: the value, and the state with RC fields cleared (`arrive` is what lands in them in the
same cycle: R9) unless the read is made by debug or a snapshot (R10). -/
def regRead (s : State) (who : Requester) (a : Nat) (arrive : Word) : Word × State :=
  let v := if visible s who a then regValue s a else 0
  match regInfo a with
  | some (_, _, r) =>
    if who = .debug ∨ ¬ visible s who a then (v, s)
    else (v, popRead (if r.rc = 0 then s else wr s a ((rd s a &&& ~~~ r.rc) ||| (arrive &&& r.rc))) a)
  | none => (v, s)

end Sys2Proof.Machine
end

