-- ==== Sys2Proof/Machine/Mem.lean ====
section
/-! DEFINITION. Moraine's address space (06): where a DRAM offset lives (R168, R171), which addresses are absent
(R167, R183), who is refused (R328, R330), the credits of a regulated resource (R209), the dirty log (R320), and the
word reads and writes every requester makes through them. -/

namespace Sys2Proof.Machine

/-! ### The interleave (R168, R171) -/

/-- Strong ECC mode in force on a die (MEM_STATUS.ECC_MODE). -/
def strong (s : State) (d : Nat) : Bool := rdf s (Reg.MEM_STATUS (2 * d)) 5 4 == 1

/-- The members of a die's interleave list: list index names pseudo-channel ⌊i/2⌋ of stack 2d + (i mod 2); those left
out at the last rebuild are not in it. -/
def members (s : State) (d : Nat) : List (Nat × Nat) :=
  ((List.range 64).map (fun i => (2 * d + i % 2, i / 2))).filter
    (fun m => !rdb s (Reg.MEM_PCH_REBUILT m.1) m.2)

/-- The members of stripe group `j`: list indices 8j to 8j + 7 (R171). -/
def groupOf (ms : List (Nat × Nat)) (j : Nat) : List (Nat × Nat) := (ms.drop (8 * j)).take 8

/-- The usable bytes of a die (R169). -/
def usable (s : State) (d : Nat) : Nat :=
  let n := (members s d).length
  if strong s d then
    ((List.range (ceilDiv n 8)).map (fun j => ((groupOf (members s d) j).length - 1) * 0x20000000)).foldl (· + ·) 0
  else n * 0x20000000

/-- The stripe group that granule `g` is assigned to: ascending, round robin, skipping any group that is full. All
groups hold 7 × 131,072 granules but the last, which may hold fewer (R171). -/
def groupIdx (n g : Nat) : Nat :=
  let groups := ceilDiv n 8
  let last := if n % 8 = 0 then 7 * 131072 else (n % 8 - 1) * 131072
  if groups = 0 then 0
  else if g < groups * last then g % groups
  else if groups = 1 then 0
  else (g - groups * last) % (groups - 1)

/-- The pseudo-channels an offset of a die's range depends on: its own in Standard mode, its whole stripe group in
Strong mode (R183). -/
def pchsOf (s : State) (d off : Nat) : List (Nat × Nat) :=
  let ms := members s d
  let g := off / 4096
  if strong s d then groupOf ms (groupIdx ms.length g) else (ms[g % ms.length]?).toList

/-- The pseudo-channel that holds the line at an offset; in Strong mode the placement inside the group is the
controller's own (R171; log entry 12). -/
def holderOf (s : State) (d off : Nat) : Nat × Nat :=
  let ps := pchsOf s d off
  if strong s d then ps.getD (Config.lineHolder (d * 0x800000000 + off / 64) % ps.length) (2 * d, 0)
  else ps.getD 0 (2 * d, 0)

/-- Has the pseudo-channel retired (MEM_PCH_RETIRED)? -/
def retiredPch (s : State) (p : Nat × Nat) : Bool := rdb s (Reg.MEM_PCH_RETIRED p.1) p.2

/-- The controller that counts an absent access at this DRAM offset, or none where the address is present (R167). -/
def absentAt (s : State) (d off : Nat) : Option Nat :=
  if usable s d ≤ off then some (2 * d)
  else match (pchsOf s d off).find? (retiredPch s) with
    | some p => some p.1
    | none => none

/-! ### Worlds and enclaves (R328-R330) -/

/-- The enclave whose range holds the address. -/
def enclaveAt (s : State) (a : Nat) : Option Nat :=
  (List.range 8).find? (fun n => rdb s (Reg.ENCL_A n) 51 &&
    decide (rdf s (Reg.ENCL_A n) 47 12 * 4096 ≤ a) &&
    decide (a < (rdf s (Reg.ENCL_A n) 47 12 + rdf s (Reg.ENCL_B n) 28 12) * 4096))

/-- The watermark (R329). -/
def watermark (s : State) : Nat := rdf s Reg.MEM_SECURE_WM 47 26 * 0x4000000

/-- Is the address in the secure region? -/
def secureAddr (s : State) (a : Nat) : Bool := decide (dramBase ≤ a) && decide (a < watermark s)

/-- Is this request refused by world or enclave (R330)? -/
def refusedBy (s : State) (who : Requester) (a : Nat) : Bool :=
  match enclaveAt s a with
  | some n => enclTag who != some n
  | none => secureAddr s a && !isSecure s who

/-- A refused request: UC 0x94, VIOLATION, and the first address since it was cleared (R330, R346). -/
def secViolation (s : State) (a : Nat) : State :=
  let s := if rdb s Reg.SEC_STATUS 0 then s else wrn s Reg.SEC_VIOL_ADDR a
  detect (hwSetBit s Reg.SEC_STATUS Reg.SEC_EVCNT 0) .package 0 .uc 0x94 a

/-! ### Drift credits (R209) -/

/-- The Drift resource of an address: the DRAM controller of its stack or its cluster's store (R206). -/
def resourceOf (s : State) (a : Nat) : Option Nat :=
  match placeOf a with
  | .dram d off => some (holderOf s d off).1
  | .clusterStore c _ => some (8 + c)
  | _ => none

/-- One service slot of resource `r` given to class `cls`: every class adds its EFF to its credit; the class served
with a credit of at least CAP pays CAP; a class with nothing pending is capped at CAP (R209). While DRIFT_CTL.ENABLE
is 0 the arbiter serves without classes (R208). -/
def driftSlot (s : State) (r cls : Nat) : State :=
  if rdb s Reg.DRIFT_CTL 0 then
    let cap := rdf s (Reg.DRIFT_CAP r) 15 0
    forUpTo 8 (fun c t =>
      let x := Tab.get 0 t.credits (r * 8 + c) + rdf t (Reg.DRIFT_SHARE (r * 8 + c)) 31 16
      let x' := if c = cls ∧ cap ≤ x then x - cap else if cap < x then cap else x
      { t with credits := Tab.set t.credits (r * 8 + c) x' }) s
  else s

/-- The slot an access to the line at `a` takes at its regulated resource. -/
def driftAccess (s : State) (lab : Label) (a : Nat) : State :=
  match resourceOf s a with
  | some r => driftSlot s r lab.cls
  | none => s

/-- A 64-byte read of a line: its slot, and MEM_READS of the controller that serves it (Table 06.11). -/
def lineRead (s : State) (lab : Label) (a : Nat) : State :=
  let s := driftAccess s lab a
  match placeOf a with
  | .dram d off => if (absentAt s d off).isSome then s else incWrap s (Reg.MEM_READS (holderOf s d off).1) 64 1
  | _ => s

/-! ### The dirty log (R320) -/

/-- A DRAM write performed on an instance's behalf sets its bit while the instance's log is on; writes to the bitmap
itself are not logged. -/
def dirtyMark (s : State) (inst a : Nat) : State :=
  match Tab.find s.host.dirty inst with
  | none => s
  | some base =>
    if dramBase ≤ a ∧ a < 0x12000000000 ∧ ¬ (base ≤ a ∧ a < base + 0x40000) then
      let n := (a - dramBase) / 0x10000
      let b := getByte s (base + n / 8)
      setByte s (base + n / 8) (b ||| BitVec.ofNat 8 (2 ^ (n % 8)))
    else s

/-! ### Word accesses -/

/-- An access to an absent address: DE 0x6A at the die, MEM_STATUS.ABSENT at the controller R167 names, a write
counted there. -/
def absentAccess (s : State) (k : Nat) (isWrite : Bool) (a : Nat) : State :=
  let s := hwSetBit s (Reg.MEM_STATUS k) (Reg.MEM_EVCNT k) 1
  let s := if isWrite then incSat s (Reg.MEM_ABSENT_WR k) 32 1 else s
  detect s .die (k / 2) .de 0x6A a

/-- A word read with no error at its cells: refused, unmapped and absent addresses read 0 poisoned (R167, R330), a
register address reads its register, every other address its stored word. -/
def busRead (s : State) (who : Requester) (a : Nat) : PWord × State :=
  let a := a / 8 * 8
  if refusedBy s who a then (⟨0, true⟩, secViolation s a)
  else match placeOf a with
    | .reg => let r := regRead s who a 0; (PWord.clean r.1, r.2)
    | .unmapped => (⟨0, true⟩, detect s .package 0 .de 0x91 a)
    | .dram d off => match absentAt s d off with
      | some k => (⟨0, true⟩, absentAccess s k false a)
      | none => (getWord s a, s)
    | _ => (getWord s a, s)

/-- A word write: discarded where refused, unmapped or absent, else performed, with its dirty bit. -/
def busWrite (s : State) (who : Requester) (lab : Label) (a : Nat) (w : PWord) : State :=
  let a := a / 8 * 8
  if refusedBy s who a then secViolation s a
  else match placeOf a with
    | .reg => regWrite s who a 64 w.v
    | .unmapped => detect s .package 0 .de 0x91 a
    | .dram d off => match absentAt s d off with
      | some k => absentAccess s k true a
      | none => dirtyMark (setWord s a w) lab.inst a
    | _ => setWord s a w

/-- `n` words from an address, one Drift slot a 64-byte line. -/
def busReadWords : Nat → State → Requester → Label → Nat → List PWord × State
  | 0, s, _, _, _ => ([], s)
  | n + 1, s, who, lab, a =>
    let s := if a % 64 = 0 then lineRead s lab a else s
    let (w, s) := busRead s who a
    let (ws, s) := busReadWords n s who lab (a + 8)
    (w :: ws, s)

/-- Words written at consecutive addresses, one Drift slot a 64-byte line. -/
def busWriteWords (s : State) (who : Requester) (lab : Label) : Nat → List PWord → State
  | _, [] => s
  | a, w :: ws =>
    let s := if a % 64 = 0 then driftAccess s lab a else s
    busWriteWords (busWrite s who lab a w) who lab (a + 8) ws

/-- The bytes of words, each with its word's poison. -/
def wordBytes (ws : List PWord) : List (Byte × Bool) :=
  ws.flatMap (fun w => (bytesLE 8 w.v.toNat).map (fun b => (b, w.p)))

/-- `n` bytes from any address, each with its word's poison. -/
def busReadBytes (s : State) (who : Requester) (lab : Label) (a n : Nat) : List (Byte × Bool) × State :=
  if n = 0 then ([], s)
  else
    let (ws, s) := busReadWords ((a + n - 1) / 8 - a / 8 + 1) s who lab (a / 8 * 8)
    (((wordBytes ws).drop (a % 8)).take n, s)

/-- One word of a byte run merged into the word that stands in memory: a byte not written keeps its value, and a
word written in part keeps a poison bit it had. -/
def mergeWord (old : PWord) (lo : Nat) (bs : List (Byte × Bool)) : PWord :=
  let olds := (bytesLE 8 old.v.toNat).map (fun b => (b, old.p))
  let all := olds.take lo ++ bs ++ olds.drop (lo + bs.length)
  ⟨BitVec.ofNat 64 (ofBytesLE (all.map (·.1))), all.any (·.2)⟩

/-- Bytes written from any address (at most `fuel` words). -/
def busWriteBytes (who : Requester) (lab : Label) : Nat → State → Nat → List (Byte × Bool) → State
  | 0, s, _, _ => s
  | _ + 1, s, _, [] => s
  | fuel + 1, s, a, bs =>
    let k := 8 - a % 8
    let w := mergeWord (getWord s (a / 8 * 8)) (a % 8) (bs.take k)
    let s := if a / 8 * 8 % 64 = 0 then driftAccess s lab a else s
    busWriteBytes who lab fuel (busWrite s who lab a w) (a + k) (bs.drop k)

/-- Firmware's own label: class 7, no instance (Table 07.9). -/
def fwLabel : Label := ⟨7, 31⟩

/-- Serac's label (Table 07.9). -/
def seracLabel : Label := ⟨0, 31⟩

end Sys2Proof.Machine
end

