-- ==== Sys2Proof/Machine/Operands.lean ====
section
/-! DEFINITION. Instruction slots (Table 02.3), which encodings are defined (R40, R66, checks 5 and 6 of Table 02.14),
and the operand forms of a core: its register files, its core store (R39) and its semaphores (R55-R58). -/

namespace Sys2Proof.Machine

/-! ### Slots -/

/-- A slot's fields (Table 02.3). -/
structure Insn where
  op : Nat
  d : Nat
  a : Nat
  b : Nat
  c : Nat
  md : Nat
  imm : BitVec 32
deriving DecidableEq, Repr

/-- The fields of a slot word. -/
def decodeSlot (w : Word) : Insn :=
  ⟨fld w 7 0, fld w 12 8, fld w 17 13, fld w 22 18, fld w 27 23, fld w 31 28, (w >>> 32).truncate 32⟩

/-- The word a slot's fields make. -/
def encodeSlot (x : Insn) : Word :=
  BitVec.ofNat 64 (x.op % 256 + x.d % 32 * 2 ^ 8 + x.a % 32 * 2 ^ 13 + x.b % 32 * 2 ^ 18 + x.c % 32 * 2 ^ 23
    + x.md % 16 * 2 ^ 28 + x.imm.toNat * 2 ^ 32)

/-- Which of a bundle's slots (Table 02.2). -/
inductive SlotKind where
  | c | m | v | x
deriving DecidableEq, Repr

/-- What a register field of an instruction names. -/
inductive RFile where
  | none | s | a | v | t | ch
deriving DecidableEq, Repr

/-- Is a field's value inside its file (R40)? An unused field is 0. -/
def RFile.ok (r : RFile) (x : Nat) : Bool :=
  match r with
  | .none => x == 0
  | .s => decide (x < 32)
  | .v => decide (x < 32)
  | .a => decide (x < 16)
  | .t => decide (x < 8)
  | .ch => decide (x < 8)

/-- What an instruction's immediate may hold. -/
inductive ImmKind where
  | none | any | aluImm | sem | semRef | loop | barCl | mout | cond | red | part5 | lane8 | cvt
deriving DecidableEq, Repr

/-- One defined opcode of a slot: its register fields, its MOD values and its immediate (Tables 02.4-02.7). -/
structure OpRow where
  op : Nat
  d : RFile
  a : RFile
  b : RFile
  c : RFile
  mods : List Nat
  imm : ImmKind
deriving DecidableEq, Repr

def cRows : List OpRow :=
  [ ⟨0x01, .s, .none, .none, .none, [0], .any⟩, ⟨0x02, .s, .none, .none, .none, [0], .any⟩,
    ⟨0x04, .s, .s, .s, .none, [0, 1], .aluImm⟩, ⟨0x05, .s, .s, .s, .none, [0, 1], .aluImm⟩,
    ⟨0x06, .s, .s, .s, .none, [0, 1], .aluImm⟩, ⟨0x07, .s, .s, .s, .none, [0, 1], .aluImm⟩,
    ⟨0x08, .s, .s, .s, .none, [0, 1], .aluImm⟩, ⟨0x09, .s, .s, .s, .none, [0, 1], .aluImm⟩,
    ⟨0x0A, .s, .s, .s, .none, [0, 1], .aluImm⟩, ⟨0x0B, .s, .s, .s, .none, [0, 1], .aluImm⟩,
    ⟨0x0C, .s, .s, .s, .none, [0], .none⟩, ⟨0x0D, .s, .s, .s, .none, [0], .none⟩,
    ⟨0x0E, .s, .s, .s, .none, [0], .none⟩, ⟨0x0F, .s, .s, .s, .none, [0, 1, 2, 3, 4, 5], .none⟩,
    ⟨0x10, .a, .s, .none, .none, [0], .none⟩, ⟨0x11, .s, .a, .none, .none, [0], .none⟩,
    ⟨0x12, .a, .a, .s, .none, [0, 1], .aluImm⟩, ⟨0x14, .s, .a, .none, .none, [0], .any⟩,
    ⟨0x15, .none, .a, .s, .none, [0], .any⟩, ⟨0x18, .none, .none, .none, .none, [0], .any⟩ ]
  ++
  [ ⟨0x19, .none, .s, .none, .none, [0], .any⟩, ⟨0x1A, .none, .s, .none, .none, [0], .any⟩,
    ⟨0x1B, .none, .s, .none, .none, [0], .loop⟩, ⟨0x1C, .s, .none, .none, .none, [0], .none⟩,
    ⟨0x1D, .s, .none, .none, .none, [0], .none⟩, ⟨0x20, .none, .s, .none, .none, [0], .semRef⟩,
    ⟨0x21, .s, .none, .none, .none, [0], .semRef⟩, ⟨0x22, .none, .none, .none, .none, [0, 1], .sem⟩,
    ⟨0x23, .none, .none, .none, .none, [0], .sem⟩, ⟨0x24, .none, .none, .none, .none, [0], .none⟩,
    ⟨0x25, .none, .none, .none, .none, [0], .barCl⟩, ⟨0x28, .none, .none, .none, .none, [0], .none⟩,
    ⟨0x2F, .none, .none, .none, .none, [0], .none⟩ ]

def mRows : List OpRow :=
  [ ⟨0x40, .none, .s, .none, .none, [0], .none⟩, ⟨0x41, .none, .a, .a, .none, [0], .none⟩,
    ⟨0x42, .t, .none, .none, .none, [0], .none⟩, ⟨0x43, .t, .a, .a, .s, [0], .none⟩,
    ⟨0x44, .t, .a, .none, .none, [0], .none⟩, ⟨0x45, .a, .none, .none, .t, [0, 1, 2, 3], .mout⟩,
    ⟨0x22, .none, .none, .none, .none, [0, 1], .sem⟩, ⟨0x23, .none, .none, .none, .none, [0], .sem⟩ ]

def vRows : List OpRow :=
  [ ⟨0x60, .v, .a, .none, .none, [0], .any⟩, ⟨0x61, .none, .a, .v, .none, [0], .any⟩,
    ⟨0x62, .v, .a, .v, .none, [0], .none⟩, ⟨0x63, .v, .s, .none, .none, [0, 1, 2, 3, 4, 5, 6], .none⟩,
    ⟨0x64, .v, .v, .v, .none, [0, 1, 2, 3, 4, 5, 6], .none⟩, ⟨0x65, .v, .v, .v, .none, [0, 1, 2, 3, 4, 5, 6], .none⟩,
    ⟨0x66, .v, .v, .v, .none, [0, 1, 2, 3, 4, 5, 6], .none⟩, ⟨0x67, .v, .v, .v, .none, [0, 1, 2, 3, 4, 5, 6], .none⟩,
    ⟨0x68, .v, .v, .v, .none, [0, 1, 2, 3, 4, 5, 6], .none⟩, ⟨0x69, .v, .v, .v, .v, [0, 1, 2, 3, 4, 5, 6], .none⟩,
    ⟨0x6A, .v, .v, .none, .none, [0, 1, 2, 3, 4, 5, 6], .none⟩, ⟨0x6B, .v, .v, .none, .none, [0, 1, 2, 3, 4, 5, 6], .none⟩,
    ⟨0x6C, .v, .v, .v, .none, [0, 1, 2, 3, 4, 5, 6], .cond⟩, ⟨0x6D, .v, .v, .v, .v, [0, 1, 2, 3, 4, 5, 6], .none⟩,
    ⟨0x6E, .v, .v, .v, .none, [0, 1, 2, 3, 4, 5, 6], .none⟩, ⟨0x6F, .v, .v, .none, .none, [0, 1, 2, 3, 4, 5, 6], .red⟩ ]
  ++
  [ ⟨0x70, .v, .v, .none, .none, [0, 1], .none⟩, ⟨0x71, .v, .v, .none, .none, [0, 1], .none⟩,
    ⟨0x72, .v, .v, .none, .none, [0, 1], .none⟩, ⟨0x73, .v, .v, .none, .none, [0, 1], .none⟩,
    ⟨0x74, .v, .v, .none, .none, [0, 1, 2, 3, 4, 5, 6], .cvt⟩,
    ⟨0x75, .v, .v, .v, .none, [0, 1, 2, 3, 4, 5, 6], .none⟩,
    ⟨0x76, .v, .none, .none, .t, [0], .part5⟩, ⟨0x77, .none, .v, .none, .t, [0], .part5⟩,
    ⟨0x78, .s, .v, .none, .none, [0, 1, 2, 3, 4, 5, 6], .lane8⟩,
    ⟨0x22, .none, .none, .none, .none, [0, 1], .sem⟩, ⟨0x23, .none, .none, .none, .none, [0], .sem⟩ ]

def xRows : List OpRow :=
  [ ⟨0x80, .none, .a, .none, .ch, [0], .none⟩, ⟨0x81, .none, .none, .none, .ch, [0], .none⟩,
    ⟨0x82, .none, .none, .none, .ch, [0], .none⟩, ⟨0x83, .none, .none, .none, .none, [0], .none⟩,
    ⟨0xA0, .none, .a, .none, .none, [0], .none⟩, ⟨0xC0, .none, .a, .none, .none, [0], .none⟩,
    ⟨0xC1, .none, .a, .none, .none, [0], .none⟩,
    ⟨0x22, .none, .none, .none, .none, [0, 1, 2, 4, 5, 6], .sem⟩, ⟨0x23, .none, .none, .none, .none, [0, 1, 2], .sem⟩ ]

def SlotKind.rows : SlotKind → List OpRow
  | .c => cRows
  | .m => mRows
  | .v => vRows
  | .x => xRows

/-- May the format be a MOUT output (Table 03.1)? -/
def moutFormats : List Nat := [1, 2, 3, 4, 8, 9, 10, 11, 12, 16, 17, 18]

/-- Lanes of a VCVT type: FP8 has 256. -/
def cvtLanes (t : Nat) : Nat := (laneOf t).count

/-- Is an immediate defined for its instruction (R48, R55, R61, R93, R94, R97, R99)? `fm` is the image's FORMATS word
where the core runs an image. -/
def immOk (k : ImmKind) (x : Insn) (fm : Option (BitVec 32)) : Bool :=
  let i := x.imm.toNat
  match k with
  | .none => i == 0
  | .any => true
  | .aluImm => if x.md = 1 then x.b == 0 else i == 0
  | .sem => decide (i / 512 % 128 = 0) && decide (i / 65536 ≠ 0) && (i / 256 % 2 == 1 || decide (i % 256 < 64))
  | .semRef => decide (i / 512 = 0) && (i / 256 % 2 == 1 || decide (i % 256 < 64))
  | .loop => decide (1 ≤ i) && decide (i ≤ 2047)
  | .barCl => decide (i / 65536 = 0) && decide (i / 16 % 16 = 0) && decide (i / 256 % 256 ≠ 0)
  | .mout =>
    let f := i % 32
    decide (i / 8192 = 0) && decide (i / 32 % 8 = 0) && moutFormats.contains f
      && (match fm with | some w => w.getLsbD f | none => true)
      && (decide (x.md < 3) || f == 1 || f == 2 || f == 3 || f == 4)
  | .cond => decide (i < 8) && decide (i ≤ 5) && (decide (3 ≤ x.md) || decide (i ≤ 3))
  | .red => decide (i ≤ 2)
  | .part5 => decide (i < 32)
  | .lane8 => decide (i < 256)
  | .cvt =>
    let t := i % 16
    let r := i / 16 % 4
    let p := i / 64 % 4
    let ns := cvtLanes x.md
    let nd := cvtLanes t
    decide (i < 256) && decide (t ≤ 8) && (decide (r ≠ 3) || (decide (3 ≤ t) && decide (t ≤ 6)))
      && (if nd = ns then p == 0 else if nd < ns then decide (p < ns / nd) else decide (p < nd / ns))

/-- Is the slot a defined encoding? NOP (opcode 0) always is (Table 02.3). -/
def slotLegal (k : SlotKind) (x : Insn) (fm : Option (BitVec 32)) : Bool :=
  match k.rows.find? (fun r => r.op == x.op) with
  | none => x.op == 0
  | some r => r.d.ok x.d && r.a.ok x.a && (r.b.ok x.b || (r.imm == .aluImm && x.b == 0)) && r.c.ok x.c
      && r.mods.contains x.md && immOk r.imm x fm

/-! ### Register files (Table 02.1) -/

def readS (s : State) (n i : Nat) : PWord := if i = 0 then ⟨0, false⟩ else Tab.get ⟨0, false⟩ (getCore s n).s i

/-- S0 always reads 0, and writes to it are discarded. -/
def writeS (s : State) (n i : Nat) (w : PWord) : State :=
  if i = 0 then s else updCore s n (fun c => { c with s := Tab.set c.s i w })

def readA (s : State) (n i : Nat) : PWord := Tab.get ⟨0, false⟩ (getCore s n).a i
def writeA (s : State) (n i : Nat) (w : PWord) : State := updCore s n (fun c => { c with a := Tab.set c.a i w })
def readV (s : State) (n i : Nat) : VReg := Tab.get {} (getCore s n).v i
def writeV (s : State) (n i : Nat) (w : VReg) : State := updCore s n (fun c => { c with v := Tab.set c.v i w })
def readT (s : State) (n i : Nat) : Tile := Tab.get {} (getCore s n).t i
def writeT (s : State) (n i : Nat) (w : Tile) : State := updCore s n (fun c => { c with t := Tab.set c.t i w })

/-- An undefined encoding executes as NOP and sets BADOP (Table 02.9). -/
def badop (s : State) (n : Nat) : State := hwSetBit s (Reg.CORE_STATUS n) (Reg.CORE_EVCNT n) 4

/-! ### Twins and signature lanes (R256, R257) -/

/-- Does the core run as one of a twin pair? -/
def twinned (s : State) (n : Nat) : Bool := rdb s (Reg.CORE_CTL n) 2

/-- The secondary of a twinned pair: its writes out of the core are folded and not performed. -/
def secondary (s : State) (n : Nat) : Bool := twinned s n && decide (n % 2 = 1)

/-- The signature lane of a unit (R257). -/
def laneNo : EUnit → Nat
  | .front => 0
  | .mxe => 1
  | .vxe => 2
  | .wne => 3
  | .ate => 4
  | .cdm => 5

/-- Bytes folded into a signature lane. -/
def foldLane (s : State) (n : Nat) (u : EUnit) (bs : List Byte) : State :=
  updCore s n (fun c => { c with lanes := Tab.upd 0 c.lanes (laneNo u) (fun x => crc64 x bs) })

/-- A store word folded: 48-bit address, then 64-bit data (R257). -/
def foldWord (s : State) (n : Nat) (u : EUnit) (addr : Nat) (v : Word) : State :=
  foldLane s n u (bytesLE 6 addr ++ bytesLE 8 v.toNat)

/-! ### The core store (R39) -/

/-- The size of a core's store: 1 MiB, or 256 KiB on a render core (R377), numbered from 128 here. -/
def csSize (n : Nat) : Nat := if n < 128 then 0x100000 else 0x40000

/-- The byte address in the device of a core-store address, wrapping at the store's size and aligned by ignoring low
bits. -/
def csAddr (n : Nat) (a align : Nat) : Nat := coreStoreBase n + a % csSize n / align * align

/-- A 64-bit core-store word. -/
def csRead (s : State) (n a : Nat) : PWord := getWord s (csAddr n a 8)

/-- A core-store word written by a unit of the core. A twinned core folds it, and a poisoned word that reaches a
fold is not written and raises UC (R257, R27). -/
def csWrite (s : State) (n : Nat) (u : EUnit) (a : Nat) (w : PWord) : State :=
  if twinned s n then
    if w.p then poisonConsumed s n (a % 0x100000 / 8 * 8)
    else setWord (foldWord s n u (a % 0x100000 / 8 * 8) w.v) (csAddr n a 8) w
  else setWord s (csAddr n a 8) w

/-- Words of the core store from an aligned address on, wrapping word by word. -/
def csReadN (s : State) (n a k : Nat) : List PWord := (List.range k).map (fun i => csRead s n (a + 8 * i))

/-- Words written to the core store in ascending order; a write that a poisoned fold stops does not go on (R27). -/
def csWriteN (s : State) (n : Nat) (u : EUnit) : Nat → List PWord → State
  | _, [] => s
  | a, w :: ws =>
    if twinned s n ∧ w.p then csWrite s n u a w else csWriteN (csWrite s n u a w) n u (a + 8) ws

/-- A 4-byte element of the core store, at an address of its own that ignores bits [1:0] (R39). -/
def csRead4 (s : State) (n a : Nat) : Nat × Bool :=
  let b := csAddr n a 4
  (getNum s b 4, poisonAt s b)

/-! ### Accesses that leave the core (Table 09.2) -/

/-- The label of the running kernel (Table 07.9). -/
def coreLabel (s : State) (n : Nat) : Label := (getCore s n).label

/-- The next value a secondary takes from its broadcast buffer for a unit; nothing there yet reads poisoned. -/
def takeBcast (s : State) (n : Nat) (u : EUnit) : PWord × State :=
  match Tab.get [] (getCore s n).bcast (laneNo u) with
  | w :: ws => (w, updCore s n (fun c => { c with bcast := Tab.set c.bcast (laneNo u) ws }))
  | [] => (⟨0, true⟩, s)

/-- A value a twinned primary hands its secondary. -/
def putBcast (s : State) (n : Nat) (u : EUnit) (w : PWord) : State :=
  if twinned s n && decide (n % 2 = 0) then
    updCore s (n + 1) (fun c => { c with bcast := Tab.upd [] c.bcast (laneNo u) (fun l => l ++ [w]) })
  else s

/-- A word read from outside the core by one of its units. A twinned primary's word also goes to its secondary's
broadcast buffer, and the secondary takes it from there (Table 09.2). -/
def extRead (s : State) (n : Nat) (u : EUnit) (who : Requester) (a : Nat) : PWord × State :=
  if secondary s n then takeBcast s n u
  else
    let (w, s) := busRead s who a
    (w, putBcast s n u w)

/-- A value the primary of a pair reads and its secondary receives (RDTIME, cluster SREAD). -/
def pairValue (s : State) (n : Nat) (v : PWord) : PWord × State :=
  if secondary s n then takeBcast s n .front else (v, putBcast s n .front v)

/-- A word a unit writes outside its core: folded when twinned, performed unless the core is a secondary. -/
def extWrite (s : State) (n : Nat) (u : EUnit) (who : Requester) (lab : Label) (a : Nat) (w : PWord) : State :=
  if twinned s n then
    if w.p then poisonConsumed s n a
    else
      let s := foldWord s n u a w.v
      if n % 2 = 1 then s else busWrite s who lab a w
  else busWrite s who lab a w

/-! ### Semaphores (R55-R58) -/

/-- The semaphore a core's instruction names: IMM[7:0] and the scope IMM[8]. -/
def semOf (n : Nat) (imm : BitVec 32) : SemId :=
  if imm.getLsbD 8 then .cluster (clusterOf n) (imm.toNat % 256) else .core n (imm.toNat % 256)

/-- The register that holds a semaphore. -/
def semReg : SemId → Nat
  | .core n i => Reg.CORE_SEM n i
  | .cluster c i => Reg.CLU_SEM c i

def semGet (s : State) (x : SemId) : Nat := rdf s (semReg x) 15 0
def semPut (s : State) (x : SemId) (v : Nat) : State := wrn s (semReg x) (v % 65536)

/-- The index and scope that CORE_STATUS records for a saturated semaphore. -/
def semIdx : SemId → Nat × Nat
  | .core _ i => (i, 0)
  | .cluster _ i => (i, 1)

/-- A signal of `k` from core `n` (R55, R58). -/
def semSignal (s : State) (n : Nat) (x : SemId) (k : Nat) : State :=
  if semGet s x + k ≤ 0xFFFF then semPut s x (semGet s x + k)
  else
    let s := semPut s x 0xFFFF
    let s := wrf (wrf s (Reg.CORE_STATUS n) 23 16 (semIdx x).1) (Reg.CORE_STATUS n) 24 24 (semIdx x).2
    hwSetBit s (Reg.CORE_STATUS n) (Reg.CORE_EVCNT n) 3

/-- A signal from a cluster channel or a conduit, which sets no flag (R58). -/
def semSignalQuiet (s : State) (x : SemId) (k : Nat) : State :=
  semPut s x (if semGet s x + k ≤ 0xFFFF then semGet s x + k else 0xFFFF)

/-- Is the semaphore a cluster semaphore? -/
def isCluSem : SemId → Bool
  | .cluster _ _ => true
  | .core _ _ => false

/-- A cluster-semaphore operation of a twinned core: folded on both cores, performed by the primary alone (Table
09.2, R257). -/
def semFold (s : State) (n : Nat) (u : EUnit) (x : SemId) (k : Nat) : State :=
  if twinned s n && isCluSem x then foldLane s n u (bytesLE 1 (semIdx x).1 ++ bytesLE 2 k) else s

/-- Does an operation on this semaphore take effect from this core? -/
def semActs (s : State) (n : Nat) (x : SemId) : Bool := !(secondary s n && isCluSem x)

/-- SSIG n: adds n to the semaphore. -/
def ssigOp (s : State) (n : Nat) (u : EUnit) (x : SemId) (k : Nat) : State :=
  let s := semFold s n u x k
  if semActs s n x then semSignal s n x k else s

/-- The waits of a twinned secondary on cluster semaphores are released with its primary's (Table 09.2): a grant of
the primary is kept for it by unit. -/
def pairGrant (s : State) (n key : Nat) : State :=
  if twinned s n && decide (n % 2 = 0) then
    updCore s (n + 1) (fun c => { c with pairWaits := Tab.upd 0 c.pairWaits key (· + 1) })
  else s

/-- A wait for `k` at the head of its queue: the state after its grant, or none while it has to wait (R55). -/
def semWait (s : State) (n : Nat) (u : EUnit) (x : SemId) (k : Nat) (keep : Bool) : Option State :=
  if secondary s n && isCluSem x then
    if 0 < Tab.get 0 (getCore s n).pairWaits (laneNo u) then
      some (updCore s n (fun c => { c with pairWaits := Tab.upd 0 c.pairWaits (laneNo u) (· - 1) }))
    else none
  else if k ≤ semGet s x then
    let s := if isCluSem x then pairGrant s n (laneNo u) else s
    some (if keep then s else semPut s x (semGet s x - k))
  else none

/-- SSET: the semaphore takes the low 16 bits of the operand. -/
def ssetOp (s : State) (n : Nat) (x : SemId) (k : Nat) : State :=
  let s := semFold s n .front x k
  if semActs s n x then semPut s x k else s

end Sys2Proof.Machine
end

