-- ==== Sys2Proof/Machine/Matrix.lean ====
section
/-! DEFINITION. The matrix engine (03): the mode MCFG and MSCALE set (R84, R85, R88), the rank-1 updates of MMAC (R87,
R90-R92) with their poison (R26), MLD, and MOUT's conversions (R93-R96). -/

namespace Sys2Proof.Machine

/-! ### Formats (Table 03.1) -/

/-- Bits of an operand element; TERN5 has none of its own. -/
def elemBits (code : Nat) : Nat :=
  match code with
  | 0 => 4
  | 5 => 4
  | 13 => 4
  | 6 => 6
  | 7 => 6
  | 14 => 6
  | 15 => 6
  | 3 => 16
  | 10 => 16
  | 11 => 16
  | 4 => 32
  | 12 => 32
  | _ => 8

/-- The element encoding of a floating format. -/
def fmtOf (code : Nat) : Option FFmt :=
  match code with
  | 5 => some fp4
  | 6 => some fp6e2
  | 7 => some fp6e3
  | 8 => some fp8e4
  | 9 => some fp8e5
  | 10 => some fp16
  | 11 => some bf16
  | 12 => some fp32
  | 13 => some fp4
  | 14 => some fp6e2
  | 15 => some fp6e3
  | 16 => some fp8e4
  | 17 => some fp8e5
  | _ => none

/-- Is an integer format signed? UINT8 alone is not. -/
def fmtSigned (code : Nat) : Bool := code != 2

/-- An element's value (R76, R78). -/
def elemVal (code x : Nat) : FVal :=
  match fmtOf code with
  | some f => f.decode x
  | none =>
    let z := laneInt (elemBits code) (fmtSigned code) x
    if code = 18 then .fin (z < 0) z.natAbs (-6) else .ofInt z

/-- Is the format block-scaled with E8M0 (codes 13-18)? -/
def isMx (code : Nat) : Bool := decide (13 ≤ code) && decide (code ≤ 18)

/-- An E8M0 scale byte (R80). -/
def e8m0 (b : Nat) : FVal := if b = 0xFF then .nan else .fin false 1 ((b : Int) - 127)

/-- Integer operand formats, floating ones, MX ones, and the A formats TERN5 pairs with (Table 03.3). -/
def intFmts : List Nat := [0, 1, 2, 3]
def fltFmts : List Nat := [5, 6, 7, 8, 9, 10, 11]
def mxFmts : List Nat := [13, 14, 15, 16, 17, 18]
def ternA : List Nat := [0, 1, 5, 8, 9, 10, 11, 13, 16, 17, 18]

/-- Does Table 03.3 allow the pair with the accumulator? -/
def pairOk (a b : Nat) (accInt : Bool) : Bool :=
  (intFmts.contains a && intFmts.contains b) ||
  (!accInt && ((fltFmts.contains a && fltFmts.contains b) || (mxFmts.contains a && mxFmts.contains b)
    || (ternA.contains a && b == 19)))

/-- Digit `i` of a TERN5 byte as a weight (R81, R82). -/
def tern5 (v i : Nat) : Int :=
  if 242 < v then 0
  else match v / 3 ^ i % 3 with
    | 0 => 0
    | 1 => 1
    | _ => -1

/-! ### MCFG, MSCALE, MZERO -/

/-- The mode after an MCFG operand, or none where R85 makes it a NOP. -/
def mcfgMode (m : MxeMode) (fm : Option (BitVec 32)) (v : Word) : Option MxeMode :=
  let a := fld v 4 0
  let b := fld v 9 5
  let declared (c : Nat) : Bool := match fm with
    | some w => w.getLsbD c
    | none => true
  if fld v 63 11 = 0 ∧ pairOk a b (bit v 10) ∧ declared a ∧ declared b then
    some { m with fa := a, fb := b, accInt := bit v 10 }
  else none

/-- MCFG on its captured operand. -/
def mcfgOp (s : State) (n : Nat) (a : PWord) : State :=
  if a.p then poisonConsumed s n 0
  else match mcfgMode (getCore s n).mode (getCore s n).formats a.v with
    | some m => updCore s n (fun c => { c with mode := m })
    | none => badop s n

/-- MSCALE: the bases of the scale streams, low six bits ignored. -/
def mscaleOp (s : State) (n : Nat) (a b : PWord) : State :=
  if a.p ∨ b.p then poisonConsumed s n 0
  else updCore s n (fun c => { c with mode := { c.mode with
    scaleA := some (a.v.toNat % 0x100000 / 64 * 64), scaleB := some (b.v.toNat % 0x100000 / 64 * 64) } })

/-- MZERO. -/
def mzeroOp (s : State) (n t : Nat) : State := writeT s n t {}

/-! ### MMAC -/

/-- A byte of a core's store, its address wrapping at 1 MiB, with its word's poison. -/
def csByte (s : State) (n a : Nat) : Nat × Bool :=
  let b := coreStoreBase n + a % 0x100000
  ((getByte s b).toNat, poisonAt s b)

/-- Element `i` of a stream of `w`-bit elements from a store address (R79), with the poison of its bytes. -/
def streamElem (s : State) (n base w i : Nat) : Nat × Bool :=
  let k := w * i / 8
  let r := w * i % 8
  let b0 := csByte s n (base + k)
  if r + w ≤ 8 then (b0.1 / 2 ^ r % 2 ^ w, b0.2)
  else
    let b1 := csByte s n (base + k + 1)
    ((b0.1 + 256 * b1.1) / 2 ^ r % 2 ^ w, b0.2 || b1.2)

/-- Column k of A: per tile row its value with its scale and its poison (R87, R88). -/
def aColumn (s : State) (n : Nat) (m : MxeMode) (aa k : Nat) : List (FVal × Bool) :=
  let w := elemBits m.fa
  (List.range 64).map (fun i =>
    let x := streamElem s n (aa + k * 8 * w) w i
    let v := elemVal m.fa x.1
    match m.scaleA with
    | some base =>
      if isMx m.fa then
        let e := csByte s n (base + 64 * (k / 32) + i)
        (v.mul (e8m0 e.1), x.2 || e.2)
      else (v, x.2)
    | none => (v, x.2))

/-- Row k of B: per column its value with its scale (none for a TERN5 zero weight: R83) and its poison. -/
def bRow (s : State) (n : Nat) (m : MxeMode) (ab k : Nat) : List (Option FVal × Bool) :=
  (List.range 32).map (fun j =>
    if m.fb = 19 then
      let x := csByte s n (ab + k / 5 * 32 + j)
      let t := tern5 x.1 (k % 5)
      let sc : FVal × Bool := match m.scaleB with
        | some base =>
          let lo := csByte s n (base + 64 * (k / 160) + 2 * j)
          let hi := csByte s n (base + 64 * (k / 160) + 2 * j + 1)
          (fp16.decode (lo.1 + 256 * hi.1), lo.2 || hi.2)
        | none => (.fin false 1 0, false)
      (if t = 0 then none else some ((FVal.ofInt t).mul sc.1), x.2 || sc.2)
    else
      let w := elemBits m.fb
      let x := streamElem s n (ab + k * 4 * w) w j
      let v := elemVal m.fb x.1
      match m.scaleB with
      | some base =>
        if isMx m.fb then
          let e := csByte s n (base + 32 * (k / 32) + j)
          (some (v.mul (e8m0 e.1)), x.2 || e.2)
        else (some v, x.2)
      | none => (some v, x.2))

/-- One cell after p = a × b: one rounding to FP32 (R90, R91), or the INT32 sum modulo 2^32 (R92). -/
def macCell (accInt : Bool) (cell : BitVec 32) (a : FVal) (b : Option FVal) : BitVec 32 :=
  let p := match b with
    | some b => a.mul b
    | none => .fin false 0 0
  if accInt then cell + BitVec.ofInt 32 (p.toInt true 0)
  else BitVec.ofNat 32 (fp32.encode .rne ((fp32.decode cell.toNat).add p))

/-- Update k applied to a tile, with the rows it poisons (R26). -/
def macUpdate (s : State) (n : Nat) (m : MxeMode) (aa ab k : Nat) (t : Tile) : Tile :=
  let as_ := aColumn s n m aa k
  let bs := bRow s n m ab k
  let all := bs.any (·.2)
  { cells := (List.range 64).flatMap (fun i =>
      let a := as_.getD i (.nan, true)
      (List.range 32).map (fun j =>
        macCell m.accInt (t.cells.getD (32 * i + j) 0) a.1 (bs.getD j (none, true)).1)),
    p := (List.range 64).foldl (fun p i =>
      if all || (as_.getD i (.nan, true)).2 then p ||| BitVec.ofNat 64 (2 ^ i) else p) t.p }

/-- K of an MMAC: Sc[16:0], capped at 65,536 (R49). -/
def macCount (c : Word) : Nat := if fld c 16 0 < 65536 then fld c 16 0 else 65536

/-- MMAC: K updates in ascending order. -/
def mmacOp (s : State) (n t : Nat) (a b c : PWord) : State :=
  if a.p ∨ b.p ∨ c.p then poisonConsumed s n 0
  else
    let m := (getCore s n).mode
    let aa := a.v.toNat % 0x100000 / 64 * 64
    let ab := b.v.toNat % 0x100000 / 64 * 64
    if macCount c.v = 0 then s
    else writeT s n t (forUpTo (macCount c.v) (fun k x => macUpdate s n m aa ab k x) (readT s n t))

/-! ### MLD -/

/-- MLD: 64 rows of 32 cells in row order; a row is poisoned when a word it came from is. -/
def mldOp (s : State) (n t : Nat) (a : PWord) : State :=
  if a.p then poisonConsumed s n 0
  else
    let ws := csReadN s n (a.v.toNat % 0x100000 / 64 * 64) 1024
    writeT s n t
      { cells := ws.flatMap (fun w => [BitVec.ofNat 32 w.v.toNat, BitVec.ofNat 32 (w.v.toNat / 2 ^ 32)]),
        p := (List.range 64).foldl (fun p i =>
          if ((ws.drop (16 * i)).take 16).any (·.p) then p ||| BitVec.ofNat 64 (2 ^ i) else p) 0 }

/-! ### MOUT -/

/-- The float rounding a MOD selects. -/
def rndOf (md : Nat) : Rnd :=
  match md with
  | 0 => .rne
  | 1 => .rz
  | _ => .rneSat

/-- A value converted to an integer type under a MOD (Tables 03.6, 03.7). -/
def toIntOut (w : Nat) (sg : Bool) (md sh : Nat) (v : FVal) : Nat :=
  match v with
  | .nan => 0
  | .inf neg =>
    if md = 3 then 0
    else if neg then satInt w sg (-(2 ^ 40 : Nat)) else satInt w sg (2 ^ 40 : Nat)
  | .fin neg m e =>
    let z := (FVal.fin neg m e).toInt (md == 1 || md == 3) sh
    if md = 3 then ofSigned w z else satInt w sg z

/-- One cell converted to a format that is not MX. -/
def moutCell (accInt : Bool) (code md sh : Nat) (cell : BitVec 32) : Nat :=
  match fmtOf code with
  | some f =>
    f.encode (rndOf md) (if accInt then .ofInt cell.toInt else fp32.decode cell.toNat)
  | none =>
    let w := elemBits code
    if accInt then
      let z := cell.toInt / (2 ^ sh : Nat)
      if md = 3 then ofSigned w z else satInt w (fmtSigned code) z
    else toIntOut w (fmtSigned code) md sh (fp32.decode cell.toNat)

/-- The exponent offset of an MX output's largest magnitude (R96). -/
def mxEmax (code : Nat) : Int :=
  match code with
  | 16 => 8
  | 17 => 15
  | _ => 0

/-- ⌊log2 |v|⌋ of a nonzero finite value. -/
def floorLog2 (v : FVal) : Option Int :=
  match v with
  | .fin _ m e => if m = 0 then none else some ((bitLen m : Int) - 1 + e)
  | _ => none

/-- A row of cells converted to an MX format: its scale byte and its elements (R95, R96). -/
def moutMxRow (accInt : Bool) (code md : Nat) (cells : List (BitVec 32)) : Nat × List Nat :=
  let vs := cells.map (fun c => if accInt then FVal.ofInt c.toInt else fp32.decode c.toNat)
  let bad := vs.any (fun v => match v with
    | .fin _ _ _ => false
    | _ => true)
  if bad then (0xFF, cells.map (fun _ => 0))
  else
    let x : Int := match (vs.filterMap floorLog2).max? with
      | none => -127
      | some l =>
        let y := l - mxEmax code
        if y < -127 then -127 else if 127 < y then 127 else y
    ((x + 127).toNat, vs.map (fun v => match v with
      | .fin neg m e =>
        (match fmtOf code with
          | some f => f.encode (if md = 1 then .rz else .rneSat) (.fin neg m (e - x))
          | none => satInt 8 true ((FVal.fin neg m (e + 6 - x)).toInt (md == 1) 0))
      | _ => 0))

/-- Elements of `w` bits packed into 64-bit words (R79). -/
def packWords (w : Nat) (xs : List Nat) (p : Bool) : List PWord :=
  let per := 64 / w
  (List.range (xs.length / per)).map (fun k =>
    ⟨BitVec.ofNat 64 (((xs.drop (k * per)).take per).foldr (fun x acc => x % 2 ^ w + 2 ^ w * acc) 0), p⟩)

/-- The words a MOUT writes, in address order: 64 rows, then an MX output's row scales. -/
def moutWords (accInt : Bool) (t : Tile) (code md sh : Nat) : List PWord :=
  let row (i : Nat) : List (BitVec 32) := (List.range 32).map (fun j => t.cells.getD (32 * i + j) 0)
  let pois (i : Nat) : Bool := t.p.getLsbD i
  if isMx code then
    let rs := (List.range 64).map (fun i => moutMxRow accInt code md (row i))
    let body := (List.range 64).flatMap (fun i => packWords 8 (rs.getD i (0, [])).2 (pois i))
    let scales := (List.range 8).flatMap (fun g =>
      packWords 8 ((List.range 8).map (fun k => (rs.getD (8 * g + k) (0, [])).1))
        ((List.range 8).any (fun k => pois (8 * g + k))))
    body ++ scales
  else
    (List.range 64).flatMap (fun i =>
      packWords (elemBits code) ((row i).map (moutCell accInt code md sh)) (pois i))

/-- MOUT of tile `t` to the address captured from Ad. -/
def moutOp (s : State) (n t md : Nat) (imm : BitVec 32) (ad : PWord) : State :=
  if ad.p then poisonConsumed s n 0
  else
    csWriteN s n .mxe (ad.v.toNat % 0x100000 / 64 * 64)
      (moutWords (getCore s n).mode.accInt (readT s n t) (imm.toNat % 32) md (imm.toNat / 256 % 32))

end Sys2Proof.Machine
end

