-- ==== Sys2Proof/Machine/Window.lean ====
section
/-! DEFINITION. The window engine (04): the job descriptor (Table 04.1) and its checks (R103-R108, R116), padding and
tap positions (R105, R106), convolution, pooling and resampling (R109-R114), and the row exchange between stripes
(R116-R121). A job runs until it must wait for a semaphore; what it waits for stands in the core's `wn`. -/

namespace Sys2Proof.Machine

/-- A window job descriptor (Table 04.1). -/
structure WDesc where
  op : Nat
  inFmt : Nat
  wFmt : Nat
  outFmt : Nat
  padMode : Nat
  poolReal : Bool
  md : Nat
  shift : Nat
  srcCl : Bool
  dstCl : Bool
  biasEn : Bool
  h : Nat
  w : Nat
  cIn : Nat
  cOut : Nat
  kh : Nat
  kw : Nat
  sh : Nat
  sw : Nat
  dh : Nat
  dw : Nat
  padT : Nat
  padB : Nat
  padL : Nat
  padR : Nat
  groups : Nat
  ho : Nat
  wo : Nat
  oph : Nat
  opw : Nat
  srcAddr : Nat
  srcPlane : Nat
  dstAddr : Nat
  dstPlane : Nat
  srcRow : Nat
  dstRow : Nat
  filterAddr : Nat
  biasAddr : Nat
  rowFirst : Nat
  rowCount : Nat
  inRow0 : Nat
  inRows : Nat
  huAddr : Nat
  huSem : Nat
  huAck : Nat
  huRows : Nat
  hdAddr : Nat
  hdSem : Nat
  hdAck : Nat
  hdRows : Nat
  otAddr : Nat
  otSem : Nat
  otAck : Nat
  otRows : Nat
  otNeed : Nat
  obAddr : Nat
  obSem : Nat
  obAck : Nat
  obRows : Nat
  obNeed : Nat
deriving DecidableEq, Repr

/-- A base or pitch with its bits [5:0] ignored (R102). -/
def align64 (x : Nat) : Nat := x / 64 * 64

/-- The fields of the sixteen descriptor words. -/
def parseWDesc (ws : List Word) : WDesc :=
  let g (i hi lo : Nat) : Nat := fld (ws.getD i 0) hi lo
  let b (i k : Nat) : Bool := bit (ws.getD i 0) k
  { op := g 0 3 0, inFmt := g 0 8 4, wFmt := g 0 13 9, outFmt := g 0 18 14, padMode := g 0 21 19,
    poolReal := b 0 22, md := g 0 24 23, shift := g 0 29 25, srcCl := b 0 30, dstCl := b 0 31, biasEn := b 0 32,
    h := g 1 14 0, w := g 1 30 16, cIn := g 1 47 32, cOut := g 1 63 48,
    kh := g 2 5 0, kw := g 2 13 8, sh := g 2 19 16, sw := g 2 23 20, dh := g 2 27 24, dw := g 2 31 28,
    padT := g 2 35 32, padB := g 2 39 36, padL := g 2 43 40, padR := g 2 47 44, groups := g 2 63 48,
    ho := g 3 14 0, wo := g 3 30 16, oph := g 3 35 32, opw := g 3 39 36,
    srcAddr := align64 (g 4 31 0), srcPlane := align64 (g 4 63 32),
    dstAddr := align64 (g 5 31 0), dstPlane := align64 (g 5 63 32),
    srcRow := align64 (g 6 15 0), dstRow := align64 (g 6 31 16),
    filterAddr := align64 (g 7 31 0), biasAddr := align64 (g 7 63 32),
    rowFirst := g 8 14 0, rowCount := g 8 30 16, inRow0 := g 8 46 32, inRows := g 8 62 48,
    huAddr := align64 (g 9 31 0), huSem := g 9 39 32, huAck := g 9 47 40, huRows := g 9 55 48,
    hdAddr := align64 (g 10 31 0), hdSem := g 10 39 32, hdAck := g 10 47 40, hdRows := g 10 55 48,
    otAddr := align64 (g 11 31 0), otSem := g 11 39 32, otAck := g 11 47 40, otRows := g 11 55 48,
    otNeed := g 11 63 56,
    obAddr := align64 (g 12 31 0), obSem := g 12 39 32, obAck := g 12 47 40, obRows := g 12 55 48,
    obNeed := g 12 63 56 }

/-- Are the reserved bits of the descriptor 0 (R101)? -/
def wdescReserved (ws : List Word) : Bool :=
  let z (i hi lo : Nat) : Bool := fld (ws.getD i 0) hi lo == 0
  z 0 63 33 && z 1 15 15 && z 1 31 31 && z 2 7 6 && z 2 15 14 && z 3 15 15 && z 3 31 31 && z 3 63 40 && z 6 63 32
    && z 8 15 15 && z 8 31 31 && z 8 47 47 && z 8 63 63 && z 9 63 56 && z 10 63 56
    && z 13 63 0 && z 14 63 0 && z 15 63 0

/-! ### Operator classes -/

def wdConv (d : WDesc) : Bool := d.op == 1 || d.op == 2
def wdT (d : WDesc) : Bool := d.op == 2
def wdPool (d : WDesc) : Bool := d.op == 3 || d.op == 4 || d.op == 5
def wdGlobal (d : WDesc) : Bool := d.op == 6 || d.op == 7 || d.op == 8
def wdResize (d : WDesc) : Bool := d.op == 9 || d.op == 10

/-- INT32 accumulation: a convolution of 8-bit input (Table 04.2). -/
def wdAccInt (d : WDesc) : Bool := d.inFmt == 1 || d.inFmt == 2

/-- The formats of Table 04.2. -/
def wdFormats (d : WDesc) : Bool :=
  let i := d.inFmt
  let o := d.outFmt
  let small := i == 1 || i == 2
  let half := i == 10 || i == 11
  if wdConv d then
    (small && d.wFmt == 1 && [1, 2, 3, 4, 10, 11, 12].contains o) ||
      (half && d.wFmt == i && [10, 11, 12, 8, 9].contains o)
  else
    d.wFmt == 0 && (small || half) &&
      (match d.op with
        | 4 => if small then o == i else [10, 11, 12].contains o
        | 7 => if small then o == i else [10, 11, 12].contains o
        | 10 => o == i || [10, 11, 12].contains o
        | _ => o == i)

/-- Is a format an integer output? -/
def intOut (o : Nat) : Bool := o == 1 || o == 2 || o == 3 || o == 4

/-- The geometry menu (Table 04.3) and the field ranges of Table 04.1. -/
def wdMenu (d : WDesc) : Bool :=
  let win := wdConv d || wdPool d
  let cnt (x hi : Nat) : Bool := decide (1 ≤ x) && decide (x ≤ hi)
  let strides := [1, 2, 3, 4, 8]
  let dils := [1, 2, 3, 4, 6, 8]
  cnt d.op 10 && cnt d.h 16384 && cnt d.w 16384 && cnt d.cIn 65535 && cnt d.cOut 65535 && cnt d.groups 65535
    && (wdConv d || d.cOut == d.cIn)
    && (if win then cnt d.kh 32 && cnt d.kw 32 && strides.contains d.sh && strides.contains d.sw
          && dils.contains d.dh && dils.contains d.dw
        else d.kh == 1 && d.kw == 1 && d.sh == 1 && d.sw == 1 && d.dh == 1 && d.dw == 1)
    && (if wdT d then d.padMode == 0 || d.padMode == 2
        else if win then decide (d.padMode ≤ 4) else d.padMode == 0)
    && (decide (2 ≤ d.padMode) || (d.padT == 0 && d.padB == 0 && d.padL == 0 && d.padR == 0))
    && (wdPool d || !d.poolReal)
    && (if wdConv d && intOut d.outFmt then true
        else if d.op == 3 || d.op == 5 || d.op == 6 || d.op == 8 || d.op == 9 then d.md == 0 else decide (d.md ≤ 2))
    && ((wdConv d && intOut d.outFmt) || d.shift == 0)
    && (if wdResize d then cnt d.ho 16384 && cnt d.wo 16384 else d.ho == 0 && d.wo == 0)
    && (wdT d || (d.oph == 0 && d.opw == 0))

/-! ### Padding and extents (R105, R106) -/

/-- The padding before and after the plane on one axis. -/
def axisPad (mode e k s dil pb pa : Nat) : Nat × Nat :=
  match mode with
  | 0 => (0, 0)
  | 1 =>
    let p := (ceilDiv e s - 1) * s + (k - 1) * dil + 1 - e
    (p / 2, p - p / 2)
  | _ => (pb, pa)

def rowPad (d : WDesc) : Nat × Nat := axisPad d.padMode d.h d.kh d.sh d.dh d.padT d.padB
def colPad (d : WDesc) : Nat × Nat := axisPad d.padMode d.w d.kw d.sw d.dw d.padL d.padR

/-- The output extent of one axis (Table 04.4). -/
def axisOut (d : WDesc) (e k s dil op ro : Nat) (p : Nat × Nat) : Int :=
  if wdT d then ((e : Int) - 1) * s + ((k : Int) - 1) * dil + 1 - p.1 - p.2 + op
  else if wdGlobal d then 1
  else if wdResize d then ro
  else if d.padMode = 1 then (ceilDiv e s : Nat)
  else ((e : Int) + p.1 + p.2 - (((k : Int) - 1) * dil + 1)) / s + 1

def outRows (d : WDesc) : Int := axisOut d d.h d.kh d.sh d.dh d.oph d.ho (rowPad d)
def outCols (d : WDesc) : Int := axisOut d d.w d.kw d.sw d.dw d.opw d.wo (colPad d)

/-- Where a plane position outside the plane takes its value from: another position, or zero. -/
def padPos (mode e : Nat) (r : Int) : Option Nat :=
  if 0 ≤ r ∧ r < e then some r.toNat
  else match mode with
    | 3 => some (if r < 0 then 0 else e - 1)
    | 4 => some (if r < 0 then (-r).toNat else (2 * ((e : Int) - 1) - r).toNat)
    | _ => none

/-- The plane position that tap `i` of output position `y` meets on an axis, or none for a zero. -/
def tapPos (d : WDesc) (e k s dil : Nat) (pb : Nat) (y i : Nat) : Option Nat :=
  if wdT d then
    let q : Int := (y : Int) + i * dil - (((k : Int) - 1) * dil - pb)
    if 0 ≤ q ∧ q % s = 0 ∧ q / s < e then some (q / s).toNat else none
  else padPos d.padMode e ((y : Int) * s - pb + i * dil)

/-- Is the tap on a real position (R111)? -/
def tapReal (e s dil pb y i : Nat) : Bool :=
  decide (pb ≤ y * s + i * dil) && decide (y * s + i * dil < e + pb)

/-- The nearest input position (R114). -/
def nearPos (e o y : Nat) : Nat := if (2 * y + 1) * e / (2 * o) < e then (2 * y + 1) * e / (2 * o) else e - 1

/-! ### FP32 arithmetic with one rounding (R113, R114) -/

def f32 (v : FVal) : FVal := fp32.decode (fp32.encode .rne v)
def f32add (a b : FVal) : FVal := f32 (a.add b)
def f32mul (a b : FVal) : FVal := f32 (a.mul b)
def f32sub (a b : FVal) : FVal := f32 (a.add b.neg)

/-- Correctly rounded division by a positive integer or value: enough quotient bits and a sticky bit. -/
def f32div (a b : FVal) : FVal :=
  match a, b with
  | .fin n m e, .fin n' m' e' =>
    if m' = 0 then .nan
    else
      let k := 64 + bitLen m'
      let q := m * 2 ^ k / m'
      let st := if m * 2 ^ k % m' = 0 then 0 else 1
      f32 (.fin (n != n') (2 * q + st) (e - e' - k - 1))
  | .inf n, .fin n' _ _ => .inf (n != n')
  | _, _ => .nan

/-- Source coordinate of bilinear resampling on one axis: lower and upper positions and the fraction. -/
def bilinPos (e o y : Nat) : Nat × Nat × FVal :=
  let half : FVal := .fin false 1 (-1)
  let r := f32div (.ofInt e) (.ofInt o)
  let yf := f32sub (f32mul (f32 ((FVal.ofInt y).add half)) r) half
  let hi : FVal := .ofInt ((e : Int) - 1)
  let yc := if yf.cmp (.ofInt 0) < 0 then .ofInt 0 else if 0 < yf.cmp hi then hi else yf
  let y0 := (yc.toInt true 0).toNat
  (y0, if y0 + 1 < e then y0 + 1 else e - 1, f32sub yc (.ofInt y0))

/-! ### Which rows a job reads (R116) -/

/-- The plane rows that output row `y` takes values from. -/
def inputRows (d : WDesc) (y : Nat) : List Nat :=
  if wdGlobal d then List.range d.h
  else if d.op = 9 then [nearPos d.h d.ho y]
  else if d.op = 10 then
    let p := bilinPos d.h d.ho y
    if p.1 = p.2.1 then [p.1] else [p.1, p.2.1]
  else ((List.range d.kh).filterMap (fun i =>
    if wdPool d && d.poolReal && !tapReal d.h d.sh d.dh (rowPad d).1 y i then none
    else tapPos d d.h d.kh d.sh d.dh (rowPad d).1 y i)).eraseDups

/-- The halo slot index of a plane row: upper and lower. -/
def upIdx (d : WDesc) (r : Nat) : Option Nat :=
  if r < d.inRow0 ∧ d.inRow0 ≤ r + d.huRows then some (r + d.huRows - d.inRow0) else none
def downIdx (d : WDesc) (r : Nat) : Option Nat :=
  if d.inRow0 + d.inRows ≤ r ∧ r < d.inRow0 + d.inRows + d.hdRows then some (r - (d.inRow0 + d.inRows)) else none
def localRow (d : WDesc) (r : Nat) : Bool := decide (d.inRow0 ≤ r) && decide (r < d.inRow0 + d.inRows)

/-- Do the stripe and its halos keep "Stripes and halo rows"? -/
def wdStripe (d : WDesc) : Bool :=
  (if wdGlobal d then d.rowFirst == 0 && d.rowCount == 1 && d.inRow0 == 0 && d.inRows == d.h && d.huRows == 0
      && d.hdRows == 0 && d.otRows == 0 && d.obRows == 0
    else true)
  && decide (((d.rowFirst + d.rowCount : Nat) : Int) ≤ outRows d) && decide (1 ≤ d.rowCount)
  && decide (d.otRows ≤ d.rowCount) && decide (d.obRows ≤ d.rowCount)
  && (List.range d.rowCount).all (fun k => (inputRows d (d.rowFirst + k)).all (fun r =>
      localRow d r || (upIdx d r).isSome || (downIdx d r).isSome))

/-- The geometry checks of R107. -/
def wdGeometry (d : WDesc) : Bool :=
  decide (0 < outRows d) && decide (0 < outCols d)
  && (d.padMode != 4 || (decide (d.padT < d.h) && decide (d.padB < d.h) && decide (d.padL < d.w) && decide (d.padR < d.w)))
  && (!wdT d || (decide (d.padT ≤ (d.kh - 1) * d.dh) && decide (d.padB ≤ (d.kh - 1) * d.dh)
      && decide (d.padL ≤ (d.kw - 1) * d.dw) && decide (d.padR ≤ (d.kw - 1) * d.dw)
      && decide (d.oph < d.sh) && decide (d.opw < d.sw)))
  && d.cIn % d.groups == 0 && d.cOut % d.groups == 0

/-- Encoding faults of a window descriptor (R107, the LOAD_REFUSED_ENCODING part). -/
def wdEncoding (ws : List Word) (d : WDesc) : Bool := wdescReserved ws && wdMenu d && wdFormats d

/-- Every check of R107 (R108). -/
def wdOk (ws : List Word) (d : WDesc) : Bool := wdEncoding ws d && wdGeometry d && wdStripe d

/-! ### Reading pixels -/

/-- Bytes of an element. -/
def fmtBytes (code : Nat) : Nat := elemBits code / 8

/-- Where row `r` of channel `c` starts: in the cluster store or the core store, at a store offset. -/
def rowAt (d : WDesc) (r c : Nat) : Bool × Nat :=
  if localRow d r then (d.srcCl, d.srcAddr + c * d.srcPlane + (r - d.inRow0) * d.srcRow)
  else match upIdx d r with
    | some i => (true, d.huAddr + c * (d.huRows * d.srcRow) + i * d.srcRow)
    | none => match downIdx d r with
      | some i => (true, d.hdAddr + c * (d.hdRows * d.srcRow) + i * d.srcRow)
      | none => (false, 0)

/-- The cluster-store words an output row reads, as store offsets. -/
def clusterWords (d : WDesc) (y : Nat) : List Nat :=
  (inputRows d y).flatMap (fun r => (List.range d.cIn).flatMap (fun c =>
    let p := rowAt d r c
    if p.1 then (List.range (ceilDiv (d.w * fmtBytes d.inFmt) 8)).map (fun k => (p.2 + 8 * k) % 0x800000)
    else []))

/-- Those words read from outside the core, by offset (Table 09.2 for a twinned core). -/
def fetchCluster (s : State) (n : Nat) : List Nat → Tab PWord → Tab PWord × State
  | [], t => (t, s)
  | o :: os, t =>
    let (w, s') := extRead s n .wne (.engine n) (clusterStoreBase (clusterOf n) + o)
    fetchCluster s' n os (Tab.set t o w)

/-- An element of a plane: its bits and its poison. -/
def pixel (s : State) (n : Nat) (cl : Tab PWord) (d : WDesc) (c r x : Nat) : Nat × Bool :=
  let p := rowAt d r c
  let k := fmtBytes d.inFmt
  let a := p.2 + x * k
  let w := if p.1 then Tab.get ⟨0, false⟩ cl (a % 0x800000 / 8 * 8) else csRead s n a
  (w.v.toNat / 2 ^ (8 * (a % 8)) % 2 ^ (8 * k), w.p)

/-! ### The operators -/

/-- A filter element (R102). -/
def filterElem (s : State) (n : Nat) (d : WDesc) (o ci i j : Nat) : Nat × Bool :=
  let k := fmtBytes d.wFmt
  let per := align64 ((d.cIn / d.groups) * d.kh * d.kw * k + 63)
  let a := d.filterAddr + o * per + ((ci * d.kh + i) * d.kw + j) * k
  let w := csRead s n a
  (w.v.toNat / 2 ^ (8 * (a % 8)) % 2 ^ (8 * k), w.p)

/-- The value at a tap, +0 where it meets padding zeros or inserted zeros. -/
def tapVal (s : State) (n : Nat) (cl : Tab PWord) (d : WDesc) (c y x i j : Nat) : FVal × Bool :=
  match tapPos d d.h d.kh d.sh d.dh (rowPad d).1 y i, tapPos d d.w d.kw d.sw d.dw (colPad d).1 x j with
  | some r, some q =>
    let p := pixel s n cl d c r q
    (elemVal d.inFmt p.1, p.2)
  | _, _ => (.fin false 0 0, false)

/-- CONV and TCONV for one output element (R112). -/
def convPixel (s : State) (n : Nat) (cl : Tab PWord) (d : WDesc) (o y x : Nat) : Nat × Bool :=
  let acc := wdAccInt d
  let bias : BitVec 32 × Bool :=
    if d.biasEn then
      let r := csRead4 s n (d.biasAddr + 4 * o)
      (BitVec.ofNat 32 r.1, r.2)
    else (0, false)
  let cg := d.cIn / d.groups
  let g := o / (d.cOut / d.groups)
  let r := (List.range (cg * d.kh * d.kw)).foldl (fun (a : BitVec 32 × Bool) t =>
    let ci := t / (d.kh * d.kw)
    let i := t / d.kw % d.kh
    let j := t % d.kw
    let v := tapVal s n cl d (g * cg + ci) y x i j
    let f := filterElem s n d o ci i j
    (macCell acc a.1 v.1 (some (elemVal d.wFmt f.1)), a.2 || v.2 || f.2)) bias
  (moutCell acc d.outFmt d.md d.shift r.1, r.2)

/-- The pool window of one element: the values that take part, in tap order (R111). -/
def poolTaps (s : State) (n : Nat) (cl : Tab PWord) (d : WDesc) (c y x : Nat) : List (FVal × Bool) :=
  if wdGlobal d then
    (List.range (d.h * d.w)).map (fun t =>
      let p := pixel s n cl d c (t / d.w) (t % d.w)
      (elemVal d.inFmt p.1, p.2))
  else
    (List.range (d.kh * d.kw)).filterMap (fun t =>
      let i := t / d.kw
      let j := t % d.kw
      if d.poolReal && !(tapReal d.h d.sh d.dh (rowPad d).1 y i && tapReal d.w d.sw d.dw (colPad d).1 x j) then none
      else some (tapVal s n cl d c y x i j))

/-- A value stored in a format exactly. -/
def encVal (code : Nat) (v : FVal) : Nat :=
  match fmtOf code with
  | some f => f.encode .rne v
  | none => ofSigned (elemBits code) (v.toInt true 0)

/-- An integer division rounded to nearest even or toward zero. -/
def divRound (rz : Bool) (z : Int) (k : Nat) : Int :=
  let q := z.natAbs / k
  let r := z.natAbs % k
  let m := if rz then q else if k < 2 * r ∨ (2 * r = k ∧ q % 2 = 1) then q + 1 else q
  if z < 0 then -(m : Int) else m

/-- The pooling operators on one element (R111, R113). -/
def poolPixel (s : State) (n : Nat) (cl : Tab PWord) (d : WDesc) (c y x : Nat) : Nat × Bool :=
  let ts := poolTaps s n cl d c y x
  let p := ts.any (·.2)
  let vs := ts.map (·.1)
  if vs.isEmpty then (0, false)
  else if d.op = 4 ∨ d.op = 7 then
    let k := vs.length
    if wdAccInt d then
      let sum := vs.foldl (fun (a : BitVec 32) v => a + BitVec.ofInt 32 (v.toInt true 0)) 0
      (satInt (elemBits d.outFmt) (fmtSigned d.outFmt) (divRound (d.md == 1) sum.toInt k), p)
    else
      let sum := vs.foldl f32add (.fin false 0 0)
      let q := f32div sum (.ofInt k)
      (moutCell false d.outFmt d.md 0 (BitVec.ofNat 32 (fp32.encode .rne q)), p)
  else
    let f := if d.op = 3 ∨ d.op = 6 then FVal.max else FVal.min
    (encVal d.outFmt (vs.tail.foldl f (vs.headD .nan)), p)

/-- RESIZE_NEAREST and RESIZE_BILINEAR on one element (R114). -/
def resizePixel (s : State) (n : Nat) (cl : Tab PWord) (d : WDesc) (c y x : Nat) : Nat × Bool :=
  if d.op = 9 then pixel s n cl d c (nearPos d.h d.ho y) (nearPos d.w d.wo x)
  else
    let py := bilinPos d.h d.ho y
    let px := bilinPos d.w d.wo x
    let at_ (r q : Nat) := pixel s n cl d c r q
    let p00 := at_ py.1 px.1
    let p01 := at_ py.1 px.2.1
    let p10 := at_ py.2.1 px.1
    let p11 := at_ py.2.1 px.2.1
    let v (p : Nat × Bool) := elemVal d.inFmt p.1
    let one : FVal := .ofInt 1
    let fx := px.2.2
    let fy := py.2.2
    let gx := f32sub one fx
    let gy := f32sub one fy
    let top := f32add (f32mul gx (v p00)) (f32mul fx (v p01))
    let bot := f32add (f32mul gx (v p10)) (f32mul fx (v p11))
    let r := f32add (f32mul gy top) (f32mul fy bot)
    (moutCell false d.outFmt d.md 0 (BitVec.ofNat 32 (fp32.encode .rne r)), p00.2 || p01.2 || p10.2 || p11.2)

/-- One output element. -/
def wnPixel (s : State) (n : Nat) (cl : Tab PWord) (d : WDesc) (o y x : Nat) : Nat × Bool :=
  if wdConv d then convPixel s n cl d o y x
  else if wdResize d then resizePixel s n cl d o y x
  else poolPixel s n cl d o y x

/-! ### Writing rows -/

/-- Bytes written by an engine from a store offset, in its core store or its cluster's, word by word. -/
def storePut (n : Nat) (u : EUnit) (cl : Bool) : Nat → State → Nat → List (Byte × Bool) → State
  | 0, s, _, _ => s
  | _ + 1, s, _, [] => s
  | fuel + 1, s, a, bs =>
    let base := if cl then clusterStoreBase (clusterOf n) + a % 0x800000 / 8 * 8 else csAddr n a 8
    let k := 8 - a % 8
    let w := mergeWord (getWord s base) (a % 8) (bs.take k)
    let s := if cl then extWrite s n u (.engine n) (coreLabel s n) base w else csWrite s n u a w
    storePut n u cl fuel s (a + k) (bs.drop k)

/-- The bytes of an output row of one channel. -/
def rowBytesOf (d : WDesc) (es : List (Nat × Bool)) : List (Byte × Bool) :=
  es.flatMap (fun e => (bytesLE (fmtBytes d.outFmt) e.1).map (fun b => (b, e.2)))

/-- A computed row, channel by channel, written with a base, a plane pitch and a row offset. -/
def wnPutRow (s : State) (n : Nat) (d : WDesc) (cl : Bool) (base plane off : Nat)
    (row : List (List (Nat × Bool))) : State :=
  (List.range row.length).foldl (fun t o =>
    let bs := rowBytesOf d (row.getD o [])
    storePut n .wne cl (ceilDiv bs.length 8) t (base + o * plane + off) bs) s

/-- A signal of the WNE on a cluster semaphore (R119). -/
def wnSignal (s : State) (n i k : Nat) : State :=
  (List.range k).foldl (fun t _ => ssigOp t n .wne (.cluster (clusterOf n) i) 1) s

/-- Output row `k` of the job: computed, stored, published, and its slots signalled (R115, R117). -/
def wnRow (s : State) (n : Nat) (d : WDesc) (k : Nat) : State :=
  let y := d.rowFirst + k
  let (cl, s) := fetchCluster s n (clusterWords d y) []
  let row := (List.range d.cOut).map (fun o => (List.range (outCols d).toNat).map (fun x => wnPixel s n cl d o y x))
  let s := wnPutRow s n d d.dstCl d.dstAddr d.dstPlane (k * d.dstRow) row
  let top := decide (k < d.otRows)
  let bot := decide (d.rowCount ≤ k + d.obRows)
  let s := if top then wnPutRow s n d true d.otAddr (d.otRows * d.dstRow) (k * d.dstRow) row else s
  let s := if bot then
      wnPutRow s n d true d.obAddr (d.obRows * d.dstRow) ((k + d.obRows - d.rowCount) * d.dstRow) row
    else s
  let s := if top then wnSignal s n d.otSem 1 else s
  if bot then wnSignal s n d.obSem 1 else s

/-! ### The job (R115, R117, R118) -/

/-- The halo rows of a slot that output rows before `k` read and no row from `k` on reads (R118.2). -/
def doneRows (d : WDesc) (idx : WDesc → Nat → Option Nat) (rows k : Nat) : Nat :=
  ((List.range rows).filter (fun i =>
    let reads (j : Nat) : Bool := (inputRows d (d.rowFirst + j)).any (fun r => idx d r == some i)
    (List.range k).any reads && !((List.range d.rowCount).drop k).any reads)).length

/-- The highest halo row of a slot that output row `k` reads. -/
def needRow (d : WDesc) (idx : WDesc → Nat → Option Nat) (k : Nat) : Option Nat :=
  ((inputRows d (d.rowFirst + k)).filterMap (idx d)).max?

/-- A wait of the WNE on a cluster semaphore. -/
def wnWaitOn (s : State) (n i k : Nat) (keep : Bool) : Option State :=
  semWait s n .wne (.cluster (clusterOf n) i) k keep

/-- The job as it stands, put back to wait. -/
def wnHold (s : State) (n : Nat) (j : WnJob) (w : WnWait) : State :=
  updCore s n (fun c => { c with wn := some { j with wait := w } })

/-- The end of a job (R118.3): each halo slot in use is settled, upper first; the job ends with the last. -/
def wnFinal (s : State) (n : Nat) (d : WDesc) (j : WnJob) : State :=
  let (s, j) :=
    if j.upSettled then (s, j)
    else if d.huRows = 0 then (s, { j with upSettled := true })
    else match wnWaitOn s n d.huSem d.huRows false with
      | some t => (wnSignal t n d.huAck (d.huRows - j.upDone), { j with upSettled := true })
      | none => (s, j)
  let (s, j) :=
    if j.downSettled then (s, j)
    else if d.hdRows = 0 then (s, { j with downSettled := true })
    else match wnWaitOn s n d.hdSem d.hdRows false with
      | some t => (wnSignal t n d.hdAck (d.hdRows - j.downDone), { j with downSettled := true })
      | none => (s, j)
  if j.upSettled ∧ j.downSettled then updCore s n (fun c => { c with wn := none }) else wnHold s n j .final

/-- One wait of a job: the state after its grant, or what it waits for. -/
def wnTry (s : State) (n i k : Nat) (keep : Bool) (w : WnWait) : State × Option WnWait :=
  match wnWaitOn s n i k keep with
  | some t => (t, none)
  | none => (s, some w)

/-- The acknowledgement waits of output row `k` (R117.1), each granted once a job. -/
def wnAckWaits (s : State) (n : Nat) (d : WDesc) (j : WnJob) (k : Nat) : State × WnJob × Option WnWait :=
  let (s, w) := if decide (k < d.otRows) && d.otNeed != 0 && !j.topAcked then
      wnTry s n d.otAck d.otNeed false .ackTop else (s, none)
  match w with
  | some w => (s, j, some w)
  | none =>
    let j := { j with topAcked := j.topAcked || decide (k < d.otRows) }
    let (s, w) := if decide (d.rowCount ≤ k + d.obRows) && d.obNeed != 0 && !j.bottomAcked then
        wnTry s n d.obAck d.obNeed false .ackBottom else (s, none)
    match w with
    | some w => (s, j, some w)
    | none => (s, { j with bottomAcked := j.bottomAcked || decide (d.rowCount ≤ k + d.obRows) }, none)

/-- The halo waits of output row `k` (R118.1); a row that cannot go on yet takes none of them. -/
def wnHaloWaits (s : State) (n : Nat) (d : WDesc) (k : Nat) : State × Option WnWait :=
  let up := match needRow d upIdx k with
    | some i => wnTry s n d.huSem (i + 1) true (.haloUp i)
    | none => (s, none)
  match up.2 with
  | some w => (s, some w)
  | none =>
    let down := match needRow d downIdx k with
      | some i => wnTry up.1 n d.hdSem (i + 1) true (.haloDown i)
      | none => (up.1, none)
    match down.2 with
    | some w => (s, some w)
    | none => (down.1, none)

/-- Output rows from the job's next one on, until the job ends or waits. -/
def wnGo (n : Nat) (d : WDesc) : Nat → State → WnJob → State
  | 0, s, j => wnHold s n j .run
  | fuel + 1, s, j =>
    if d.rowCount ≤ j.row then wnFinal s n d j
    else
      let up := doneRows d upIdx d.huRows j.row
      let down := doneRows d downIdx d.hdRows j.row
      let s := wnSignal (wnSignal s n d.huAck (up - j.upDone)) n d.hdAck (down - j.downDone)
      let j := { j with upDone := up, downDone := down }
      match wnAckWaits s n d j j.row with
      | (s, j, some w) => wnHold s n j w
      | (s, j, none) => (match wnHaloWaits s n d j.row with
        | (s, some w) => wnHold s n j w
        | (s, none) => wnGo n d fuel (wnRow s n d j.row) { j with row := j.row + 1 })

/-- A job in progress goes on. -/
def wnContinue (s : State) (n : Nat) (j : WnJob) : State :=
  let d := parseWDesc j.desc
  wnGo n d (d.rowCount + 1) s j

/-- WN.RUN on its captured address (R101, R108): a poisoned descriptor raises UC, a bad one only BADOP. -/
def wnRunOp (s : State) (n : Nat) (a : PWord) : State :=
  if a.p then poisonConsumed s n 0
  else
    let ws := csReadN s n (align64 (a.v.toNat % 0x100000)) 16
    if ws.any (·.p) then poisonConsumed s n (align64 (a.v.toNat % 0x100000))
    else
      let vs := ws.map (·.v)
      let d := parseWDesc vs
      if wdOk vs d then
        wnContinue s n { desc := vs, row := 0, wait := .run, topAcked := false, bottomAcked := false, upDone := 0,
                         downDone := 0, upSettled := false, downSettled := false }
      else badop s n

/-- A grant of a waiting job's wait: the job tries it again and goes on. -/
def wnGrant (s : State) (n : Nat) (kind : WnWait → Bool) : State :=
  match (getCore s n).wn with
  | some j => if kind j.wait then wnContinue s n j else s
  | none => s

/-! ### The commands -/

/-- WN_RUN (R115): the instruction on the address register named, unless a job is running. -/
def execWnRun (core a : Nat) (s : State) : Result :=
  .next (if (getCore s core).wn.isSome then s else wnRunOp s core (readA s core a))

/-- WN_ACK_WAIT_GRANT (R117). -/
def execWnAckWaitGrant (core : Nat) (s : State) : Result :=
  .next (wnGrant s core (fun w => match w with
    | .ackTop => true
    | .ackBottom => true
    | _ => false))

/-- WN_HALO_WAIT_GRANT (R118). -/
def execWnHaloWaitGrant (core : Nat) (s : State) : Result :=
  .next (wnGrant s core (fun w => match w with
    | .haloUp _ => true
    | .haloDown _ => true
    | _ => false))

/-- WN_FINAL_HALO_SETTLE (R118). -/
def execWnFinalHaloSettle (core : Nat) (s : State) : Result :=
  .next (wnGrant s core (fun w => match w with
    | .final => true
    | _ => false))

end Sys2Proof.Machine
end

