-- ==== Sys2Proof/Machine/Firn.lean ====
section
/-! DEFINITION. The page authority (R135-R163): page classes, the page map and its pools (R138-R140), sequences and
page lists (R141, R142), the three phases of a boundary (R150-R153), copy-on-write (R158), commit and undo (R154,
R155), the prefix tree (R159) and the effect of a retirement (R162). -/

namespace Sys2Proof.Machine

/-! ### Page classes (Table 05.4) -/

def classOk (c : Nat) : Bool := decide (1 ≤ c) && decide (c ≤ 12)

/-- Head dimension of a class. -/
def classDim (c : Nat) : Nat := if c ≤ 4 then 64 else if c ≤ 8 then 128 else 256

/-- The format code of a class's K and V. -/
def classFmt (c : Nat) : Nat := 8 + (c - 1) % 4

/-- Bytes of an element of a class. -/
def classKb (c : Nat) : Nat := fmtBytes (classFmt c)

/-- Tokens a page. -/
def classT (c : Nat) : Nat := 0x8000 / (2 * classDim c * classKb c)

/-! ### Frames and pages (R137, R138, R162) -/

def frameAddr (f : Nat) : Nat := dramBase + f * 0x8000
def frameDie (f : Nat) : Nat := f / 0x100000

/-- The pseudo-channels a frame's eight granules depend on. -/
def framePchs (s : State) (f : Nat) : List (Nat × Nat) :=
  (List.range 8).flatMap (fun i => pchsOf s (frameDie f) (f % 0x100000 * 0x8000 + i * 4096))

/-- Is the frame affected by a retirement (R162)? -/
def frameHit (s : State) (f : Nat) : Bool := (framePchs s f).any (retiredPch s)

/-- Is the frame outside the pool: in an absent top, below the watermark, held by firmware, or Firn not set up? -/
def frameOut (s : State) (f : Nat) : Bool :=
  match s.firn.init with
  | none => true
  | some i =>
    decide (i.usable.getD (frameDie f) 0 < (f % 0x100000 + 1) * 0x8000) || decide (frameAddr f < i.wm) ||
      i.held.any (fun r => decide (r.1 ≤ f) && decide (f < r.1 + r.2))

/-- A page-map entry: as written by the page authority, or as firmware wrote it (page n bound to frame n). -/
def pageEnt (s : State) (n : Nat) : PageEnt := Tab.get ⟨n, 0, 0, 0, 31⟩ s.firn.tabs.pages n

/-- A page's STATE (Table 05.5). A page whose REFCNT is 0 is UNPOOLED, RETIRED or FREE by its frame. -/
def pageState (s : State) (n : Nat) : Nat :=
  let e := pageEnt s n
  if e.state ≠ 0 then e.state
  else if frameOut s e.frame then 5
  else if frameHit s e.frame then 4
  else 0

def setTabs (s : State) (t : FirnTabs) : State := { s with firn := { s.firn with tabs := t } }
def setPage (s : State) (n : Nat) (e : PageEnt) : State :=
  setTabs s { s.firn.tabs with pages := Tab.set s.firn.tabs.pages n e }

/-- The model instance whose reserve a FREE page stands in. -/
def reserveOf (s : State) (n : Nat) : Option Nat := Tab.find s.firn.tabs.resv n

/-- Is the page FREE in the common pool of die `d`? -/
def inPool (s : State) (d n : Nat) : Bool :=
  pageState s n == 0 && (reserveOf s n).isNone && frameDie (pageEnt s n).frame == d

/-- The page bound to a frame. -/
def pageOfFrame (s : State) (f : Nat) : Nat :=
  match s.firn.tabs.pages.find? (fun e => e.2.frame == f) with
  | some e => e.1
  | none => f

/-! ### Counting (FIRN_FREE, FIRN_RETIRED) -/

/-- Frames from `lo` to `hi - 1` of die `d` that a retirement affects; in Standard mode the interleave repeats. -/
def hitCount (s : State) (d lo hi : Nat) : Nat :=
  if hi ≤ lo ∨ ¬ (members s d).any (retiredPch s) then 0
  else
    let n := (members s d).length
    let per := if strong s d then hi - lo else n / Nat.gcd n 8
    let one := ((List.range per).filter (fun k => frameHit s (lo + k))).length
    let part := ((List.range ((hi - lo) % per)).filter (fun k => frameHit s (lo + k))).length
    (hi - lo) / per * one + part

/-- The bounds of a die's frames that firmware put in the pool, before the runs it holds. -/
def poolLo (s : State) (d : Nat) : Nat :=
  match s.firn.init with
  | none => 0
  | some i =>
    let w := (i.wm - dramBase) / 0x8000
    if w < d * 0x100000 then d * 0x100000 else w
def poolHi (s : State) (d : Nat) : Nat :=
  match s.firn.init with
  | none => 0
  | some i => d * 0x100000 + i.usable.getD d 0 / 0x8000

/-- The runs held on a die, cut to its pool bounds. -/
def heldOn (s : State) (d : Nat) : List (Nat × Nat) :=
  match s.firn.init with
  | none => []
  | some i => (i.held.map (fun r =>
      ((if r.1 < poolLo s d then poolLo s d else r.1),
       (if poolHi s d < r.1 + r.2 then poolHi s d else r.1 + r.2)))).filter (fun r => decide (r.1 < r.2))

def sumBy {α : Type} (f : α → Nat) (l : List α) : Nat := (l.map f).foldl (· + ·) 0

/-- Pages with an entry of their own or in a reserve. -/
def touchedPages (s : State) : List Nat :=
  s.firn.tabs.pages.map (·.1) ++
    (s.firn.tabs.resv.map (·.1)).filter (fun n => (Tab.find s.firn.tabs.pages n).isNone)

/-- FREE pages in the common pool of a die. -/
def freeCount (s : State) (d : Nat) : Nat :=
  let lo := poolLo s d
  let hi := poolHi s d
  if hi ≤ lo then 0
  else
    (hi - lo) - hitCount s d lo hi
      - sumBy (fun r => (r.2 - r.1) - hitCount s d r.1 r.2) (heldOn s d)
      - ((touchedPages s).filter (fun n =>
          let f := (pageEnt s n).frame
          frameDie f == d && !frameOut s f && !frameHit s f && !inPool s d n)).length

/-- RETIRED pages. -/
def retiredPages (s : State) : Nat :=
  sumBy (fun d =>
    hitCount s d (poolLo s d) (poolHi s d) - sumBy (fun r => hitCount s d r.1 r.2) (heldOn s d)) (List.range 4)
  - ((touchedPages s).filter (fun n =>
      !frameOut s (pageEnt s n).frame && frameHit s (pageEnt s n).frame && pageState s n != 4)).length

/-- FIRN_FREE0-3 and FIRN_RETIRED brought up to date. -/
def firnCounts (s : State) : State :=
  let s := (List.range 4).foldl (fun t d => wrn t (Reg.FIRN_FREE d) (freeCount s d)) s
  wrn s Reg.FIRN_RETIRED (retiredPages s)

/-! ### Taking and freeing pages (R139, R140, R151) -/

/-- A model instance's KV heads held on this device. -/
def miKvh (m : MiDecl) : Nat := if m.byPos then m.heads else m.localCount * (m.heads / m.shards)

/-- The die of page `j` of device head `h`, or none where another device holds it (R144, R145). -/
def dieAt (m : MiDecl) (h j : Nat) : Option Nat :=
  if m.byPos then
    if m.localFirst ≤ j % m.shards then m.dies[j % m.shards - m.localFirst]? else none
  else m.dies[h / (m.heads / m.shards)]?

/-- The reserve a model instance declares on a die: its size for each local shard bound there. -/
def declaredOn (m : MiDecl) (d : Nat) : Nat := m.reserve * (m.dies.filter (· == d)).length

/-- The FREE pages of a model instance's reserve on a die. -/
def reservePages (s : State) (mi d : Nat) : List Nat :=
  ((s.firn.tabs.resv.filter (fun e => e.2 == mi)).map (·.1)).filter
    (fun n => frameDie (pageEnt s n).frame == d && pageState s n == 0)

/-- A page whose last name has gone: FREE in the releasing instance's reserve while that is below its size, else in
the common pool; RETIRED where its frame is affected. -/
def freePage (s : State) (mi n : Nat) : State :=
  let f := (pageEnt s n).frame
  let t := s.firn.tabs
  let s := setTabs s { t with pages := if f = n then Tab.del t.pages n else Tab.set t.pages n ⟨f, 0, 0, 0, 31⟩ }
  match Tab.find s.firn.mis mi with
  | none => s
  | some m =>
    if pageState s n = 0 ∧ (reservePages s mi (frameDie f)).length < declaredOn m (frameDie f) then
      setTabs s { s.firn.tabs with resv := Tab.set s.firn.tabs.resv n mi }
    else s

/-- A name of a page given up. -/
def decRef (s : State) (mi n : Nat) : State :=
  let e := pageEnt s n
  if e.refcnt ≤ 1 then freePage s mi n else setPage s n { e with refcnt := e.refcnt - 1 }

/-- A FREE page of a die's common pool, found from a starting frame upwards and round. -/
def poolFrom (s : State) (d start : Nat) : Nat → Nat → Option Nat
  | 0, _ => none
  | fuel + 1, k =>
    let p := pageOfFrame s (d * 0x100000 + (start + k) % 0x100000)
    if inPool s d p then some p else poolFrom s d start fuel (k + 1)

/-- The page a grant takes on a die: from the reserve while it has any, else from the common pool; which one is open
(log entry 22). -/
def pickPage (s : State) (mi d : Nat) : Option Nat :=
  let r := reservePages s mi d
  let c := Config.choice s.free
  if r.isEmpty then (if freeCount s d = 0 then none else poolFrom s d (c % 0x100000) 0x100000 0)
  else r[c % r.length]?

/-- Pages a model instance can be granted on a die. -/
def avail (s : State) (mi d : Nat) : Nat := (reservePages s mi d).length + freeCount s d

/-- A page RESERVED for a model instance on a die. -/
def grant (s : State) (mi d : Nat) : Option (Nat × State) :=
  match pickPage s mi d, Tab.find s.firn.mis mi with
  | some n, some m =>
    let t := s.firn.tabs
    let s := drawn (setTabs s { t with resv := Tab.del t.resv n })
    some (n, setPage s n ⟨(pageEnt s n).frame, 1, m.cls, 1, m.owner⟩)
  | _, _ => none

/-! ### Sequences and page lists (R141, R142) -/

def seqOf (s : State) (q : Nat) : SeqEnt := Tab.get {} s.firn.tabs.seqs q
def setSeq (s : State) (q : Nat) (e : SeqEnt) : State :=
  setTabs s { s.firn.tabs with seqs := if e = {} then Tab.del s.firn.tabs.seqs q else Tab.set s.firn.tabs.seqs q e }

def slotAddr (e : SeqEnt) (h j : Nat) : Nat := e.plist + (h * e.pcap + j) * 4

/-- A page-list slot: its logical page where it is VALID. -/
def slotPage (s : State) (e : SeqEnt) (h j : Nat) : Option Nat :=
  let w := getNum s (slotAddr e h j) 4
  if w / 2 ^ 31 % 2 = 1 then some (w % 2 ^ 22) else none

/-- The label of a model instance's requests. -/
def miLabel (s : State) (mi : Nat) : Label :=
  match Tab.find s.firn.mis mi with
  | some m => ⟨m.drift, m.owner⟩
  | none => fwLabel

/-- A page-list slot written by the page authority; a boundary in progress journals the word. -/
def writeSlot (s : State) (e : SeqEnt) (h j : Nat) (page : Option Nat) : State :=
  let a := slotAddr e h j
  let s := match s.firn.busy with
    | some b => { s with firn := { s.firn with busy := some { b with slots := (a / 8 * 8, getWord s a) :: b.slots } } }
    | none => s
  let v := match page with
    | some n => n + 2 ^ 31
    | none => 0
  busWriteBytes .firn (miLabel s e.mi) 2 s a ((bytesLE 4 v).map (fun b => (b, false)))

/-- Page slots `(h, j)` with j from `lo` to `hi - 1` over every head. -/
def slotsOf (kvh lo hi : Nat) : List (Nat × Nat) :=
  (List.range kvh).flatMap (fun h => (List.range (hi - lo)).map (fun k => (h, lo + k)))

/-! ### The prefix tree (R159) -/

/-- A set's entry that matches a block, if any. -/
def treeFind (s : State) (hash : Word) (parent : Option Nat) : Option Nat :=
  (List.range 8).findSome? (fun w =>
    let i := fld hash 16 0 * 8 + w
    match Tab.find s.firn.tabs.tree i with
    | some e =>
      if e.hash == hash && (match parent with
          | none => e.root
          | some p => !e.root && e.parent == p) then some i else none
    | none => none)

/-- A free way of a block's set. -/
def treeFree (s : State) (hash : Word) : Option Nat :=
  (List.range 8).findSome? (fun w =>
    let i := fld hash 16 0 * 8 + w
    match Tab.find s.firn.tabs.tree i with
    | some _ => none
    | none => some i)

/-- The longest match of a hash chain: its depth and its deepest entry. -/
def treeMatch (s : State) : List Word → Option Nat → Nat → Nat × Option Nat
  | [], p, d => (d, p)
  | h :: hs, p, d =>
    match treeFind s h p with
    | some i => treeMatch s hs (some i) (d + 1)
    | none => (d, p)

/-- Blocks of a chain inserted from block `k` on; the state and the block that met a full set, if any. -/
def treeInsert (q : Nat) : List Word → State → Option Nat → Nat → State × Bool
  | [], s, _, _ => (s, false)
  | h :: hs, s, p, k =>
    match treeFind s h p with
    | some i => treeInsert q hs s (some i) (k + 1)
    | none => match treeFree s h with
      | none => (s, true)
      | some i =>
        let e : TreeEnt := ⟨h, p.getD 0, p.isNone, q, k⟩
        treeInsert q hs (setTabs s { s.firn.tabs with tree := Tab.set s.firn.tabs.tree i e }) (some i) (k + 1)

/-- Entries whose parent has gone, removed until none is left (at most as many rounds as entries). -/
def treeClose : Nat → Tab TreeEnt → Tab TreeEnt
  | 0, t => t
  | fuel + 1, t =>
    let t' := t.filter (fun e => e.2.root || (Tab.find t e.2.parent).isSome)
    if t'.length = t.length then t else treeClose fuel t'

/-- A released sequence's entries leave the tree with every entry below them. -/
def treeDrop (s : State) (q : Nat) : State :=
  let t := s.firn.tabs.tree.filter (fun e => e.2.donor != q)
  setTabs s { s.firn.tabs with tree := treeClose t.length t }

/-! ### Release (R151) -/

/-- A sequence released: its pages lose a name each, its tree entries go, its table entry becomes FREE. -/
def releaseSeq (s : State) (q : Nat) : State :=
  let e := seqOf s q
  let t := match Tab.find s.firn.mis e.mi with
    | some m => classT m.cls
    | none => 1
  let s := (slotsOf e.kvh 0 (ceilDiv e.len t)).foldl (fun st x =>
    match slotPage st e x.1 x.2 with
    | some n => decRef st e.mi n
    | none => st) s
  let s := treeDrop s q
  let s := setTabs s { s.firn.tabs with
    carried := Tab.upd [] s.firn.tabs.carried e.mi (fun l => l.filter (fun j => j.seq != q)) }
  setSeq s q {}

/-- Phase 1 (R150, R151): LEAVING and RELEASING sequences of the model instance, and the frames KV_COMPACT left. -/
def phase1 (s : State) (mi : Nat) : State :=
  let qs := (s.firn.tabs.seqs.filter (fun e => e.2.mi == mi && (e.2.state == 3 || e.2.state == 4))).map (·.1)
  let s := qs.foldl releaseSeq s
  let done := s.firn.tabs.swaps.filter (fun x => x.1 == mi)
  let s := setTabs s { s.firn.tabs with swaps := s.firn.tabs.swaps.filter (fun x => x.1 != mi) }
  done.foldl (fun t x => freePage t mi x.2) s

/-! ### Copy-on-write (R158) -/

/-- Distance of two dies along the ring. -/
def ringDist (a b : Nat) : Nat :=
  let x := (a + 4 - b) % 4
  if x ≤ 2 then x else 4 - x

/-- Is a cluster in service for a copy? -/
def cluUp (s : State) (c : Nat) : Bool :=
  (getClu s c).inService && (getDie s (dieOfCluster c)).inService && !parked s (dieOfCluster c)

/-- The cluster whose channel 15 copies a page of die `d`. -/
def copyCluster (s : State) (d : Nat) : Option Nat :=
  ((List.range 3).flatMap (fun r => (List.range 4).filter (fun x => ringDist x d == r))).findSome? (fun x =>
    ((List.range 4).map (fun i => 4 * x + i)).find? (cluUp s))

/-- 32 KiB copied word by word with its poison, by channel 15 of cluster `c`. -/
def copyPage (s : State) (c : Nat) (lab : Label) (src dst : Nat) : State :=
  let who := Requester.chan (.cluster c 15) true
  forUpTo 4096 (fun i t =>
    let (w, t) := busRead (if i % 8 = 0 then lineRead t lab (src + 8 * i) else t) who (src + 8 * i)
    busWrite (if i % 8 = 0 then driftAccess t lab (dst + 8 * i) else t) who lab (dst + 8 * i) w) s

/-- One copy-on-write made: the page copied, the slot pointed at the new page, the old page's name given up. -/
def cowCopy (s : State) (mi q : Nat) (e : SeqEnt) (h j old new : Nat) : State :=
  let fo := (pageEnt s old).frame
  let fn := (pageEnt s new).frame
  let s := match copyCluster s (frameDie fn) with
    | some c => copyPage s c (miLabel s mi) (frameAddr fo) (frameAddr fn)
    | none => s
  let s := incSat (writeSlot s e h j (some new)) Reg.FIRN_COW 32 1
  let oe := pageEnt s old
  let s := setPage s old { oe with refcnt := oe.refcnt - 1 }
  match s.firn.busy with
  | some b => { s with firn := { s.firn with busy := some { b with copies := b.copies ++ [⟨q, h, j, old, new⟩] } } }
  | none => s

/-! ### Growth and admission (R152, R153) -/

/-- Can every die grant what a list of dies asks, one page each? -/
def canGrant (s : State) (mi : Nat) (dies : List Nat) : Bool :=
  dies.all (fun d => decide ((dies.filter (· == d)).length ≤ avail s mi d))

/-- New slots filled: a granted page where this device holds it, else not VALID. -/
def fillSlots (s : State) (mi : Nat) (m : MiDecl) (e : SeqEnt) (xs : List (Nat × Nat)) : State :=
  xs.foldl (fun t x =>
    match dieAt m x.1 x.2 with
    | some d => (match grant t mi d with
      | some (n, t') => writeSlot t' e x.1 x.2 (some n)
      | none => t)
    | none => writeSlot t e x.1 x.2 none) s

/-- A continuing entry judged (R152): its status and the state. -/
def judgeCont (s : State) (mi : Nat) (m : MiDecl) (q g : Nat) : Nat × State :=
  let e := seqOf s q
  let t := classT m.cls
  if e.mi ≠ mi ∨ (e.state ≠ 2 ∧ e.state ≠ 3) then (0x03, s)
  else if 1048576 < e.len + g ∨ e.pcap * t < e.len + g then (0x04, s)
  else
    let c0 := ceilDiv e.len t
    let c1 := ceilDiv (e.len + g) t
    let pc := e.len / t
    let new := slotsOf e.kvh c0 c1
    let cow := if e.len % t = 0 then [] else (List.range e.kvh).filterMap (fun h =>
      match slotPage s e h pc, dieAt m h pc with
      | some n, some d => if 1 < (pageEnt s n).refcnt then some (h, n, d) else none
      | _, _ => none)
    let dies := new.filterMap (fun x => dieAt m x.1 x.2) ++ cow.map (fun x => x.2.2)
    if ¬ canGrant s mi dies then (0x02, s)
    else if cow.any (fun x => (copyCluster s x.2.2).isNone) then (0x07, s)
    else
      let s := fillSlots s mi m e new
      let s := cow.foldl (fun st x =>
        match grant st mi x.2.2 with
        | some (n, st') => cowCopy st' mi q e x.1 pc x.2.1 n
        | none => st) s
      (0x00, setSeq s q { e with len := e.len + g })

/-- A join judged (R153): its status and the state. `stall` says a continuing entry stalled, `full` that 4,096 entries
are OK already (R157). A carried join's sequence is PENDING. -/
def judgeJoin (s : State) (mi : Nat) (m : MiDecl) (j : JoinEnt) (carried stall full : Bool) : Nat × State :=
  let t := classT m.cls
  let don := seqOf s j.donor
  let old := seqOf s j.seq
  let ns := if j.donorEn then ceilDiv j.share t else 0
  let np := ceilDiv j.p t
  let kvh := miKvh m
  let shared := if j.donorEn then (slotsOf kvh 0 ns).filterMap (fun x =>
    (slotPage s don x.1 x.2).map (fun n => (x.1, x.2, n))) else []
  if ¬ carried ∧ old.state ≠ 0 then (0x06, s)
  else if 1048576 < j.p then (0x04, s)
  else if j.pcap * t < j.p then (0x08, s)
  else if j.donorEn ∧ don.state ≠ 2 ∧ don.state ≠ 3 then (0x03, s)
  else if j.donorEn ∧ (don.mi ≠ mi ∨ j.p < j.share ∨ don.len < j.share) then (0x08, s)
  else if shared.any (fun x => 65535 ≤ (pageEnt s x.2.2).refcnt) then (0x05, s)
  else if stall ∨ full then (0x01, s)
  else
    let cow := if j.share % t ≠ 0 ∧ j.share < j.p ∧ j.donorEn then shared.filter (fun x => x.2.1 + 1 == ns) else []
    let new := slotsOf kvh ns np
    let dies := new.filterMap (fun x => dieAt m x.1 x.2) ++ cow.filterMap (fun x => dieAt m x.1 x.2.1)
    if ¬ canGrant s mi dies then (0x01, s)
    else if cow.any (fun x => ((dieAt m x.1 x.2.1).bind (copyCluster s)).isNone) then (0x07, s)
    else
      let e : SeqEnt :=
        { state := 2, owner := m.owner, mi := mi, len := j.p, kvh := kvh, pcap := j.pcap, donor := j.donor,
          donorEn := j.donorEn, plist := j.plist, stepLast := 0 }
      let s := setSeq s j.seq e
      let s := (slotsOf kvh 0 ns).foldl (fun st x =>
        match slotPage s don x.1 x.2 with
        | some n =>
          let pe := pageEnt st n
          writeSlot (setPage st n { pe with refcnt := pe.refcnt + 1 }) e x.1 x.2 (some n)
        | none => writeSlot st e x.1 x.2 none) s
      let s := fillSlots s mi m e new
      let s := cow.foldl (fun st x =>
        match (dieAt m x.1 x.2.1).bind (grant st mi) with
        | some (n, st') => cowCopy st' mi j.seq e x.1 x.2.1 x.2.2 n
        | none => st) s
      (0x00, s)

/-! ### Undoing one entry (R156, R158) -/

/-- A continuing entry's grants undone: its new slots emptied, its copies given back, LEN as before. -/
def undoCont (s : State) (mi : Nat) (m : MiDecl) (q g : Nat) : State :=
  let e := seqOf s q
  let t := classT m.cls
  let len := e.len - g
  let mine : List CowCopy := match s.firn.busy with
    | some b => b.copies.filter (fun c => c.seq == q)
    | none => []
  let s := (slotsOf e.kvh (ceilDiv len t) (ceilDiv e.len t)).foldl (fun st x =>
    match slotPage st e x.1 x.2 with
    | some n => writeSlot (freePage st mi n) e x.1 x.2 none
    | none => st) s
  let s := mine.foldl (fun st c =>
    let oe := pageEnt st c.old
    writeSlot (freePage (setPage st c.old { oe with refcnt := oe.refcnt + 1 }) mi c.new) e c.head c.idx (some c.old)) s
  setSeq s q { e with len := len }

/-! ### The boundary (R149-R157) -/

/-- A join entry of a step descriptor, or none where it is BAD_ENTRY in itself (R147, Table 05.9). -/
def parseJoin (w0 w1 w2 w3 : Word) : Option JoinEnt :=
  if fld w0 63 53 ≠ 0 ∨ bit w0 19 ∨ fld w1 63 38 ≠ 0 ∨ fld w2 63 48 ≠ 0 ∨ fld w3 63 16 ≠ 0 ∨ fld w0 31 20 ≠ 0
      ∨ fld w0 52 32 = 0 ∨ fld w3 15 0 = 0 ∨ 32768 < fld w3 15 0
      ∨ (bit w1 16 = false ∧ (fld w1 15 0 ≠ 0 ∨ fld w1 37 17 ≠ 0)) then none
  else some
    { seq := fld w0 15 0, last := fld w0 18 16 == 3, p := fld w0 52 32, donor := fld w1 15 0, donorEn := bit w1 16,
      share := fld w1 37 17, plist := fld w2 47 0, pcap := fld w3 15 0 }

/-- Is a continuing entry well formed? -/
def contOk (w0 w1 w2 w3 : Word) : Bool :=
  fld w0 63 53 == 0 && !bit w0 19 && fld w0 52 32 == 0 && fld w0 31 20 != 0 && w1 == 0 && w2 == 0 && w3 == 0

/-- The refusal of a step descriptor as a whole, if any (R147, R157): its header and entry words. -/
def stepRefusal (mi : Nat) (h : List PWord) (es : List PWord) : Option Nat :=
  let w (i : Nat) : Word := (h.getD i ⟨0, true⟩).v
  let named := (List.range (es.length / 4)).map (fun i => fld (es.getD (4 * i) ⟨0, true⟩).v 15 0)
  if 4096 < fld (w 0) 28 16 then some 0x10
  else if h.any (·.p) ∨ es.any (·.p) ∨ fld (w 0) 63 29 ≠ 0 ∨ fld (w 0) 15 0 ≠ mi ∨ fld (w 1) 63 48 ≠ 0
      ∨ fld (w 2) 63 48 ≠ 0 ∨ (h.drop 3).any (fun x => x.v != 0) ∨ named.eraseDups.length ≠ named.length then some 0x11
  else none

def setBusy (s : State) (b : Option Boundary) : State :=
  wrf { s with firn := { s.firn with busy := b } } Reg.FIRN_STATUS 6 6 (b2n b.isSome)

def updBusy (s : State) (f : Boundary → Boundary) : State :=
  match s.firn.busy with
  | some b => { s with firn := { s.firn with busy := some (f b) } }
  | none => s

/-- Phase 3 on the boundary in progress: carried joins in order, then the descriptor's; their statuses go to their
places in the results. -/
def phase3 (s : State) (mi : Nat) (m : MiDecl) : State :=
  match s.firn.busy with
  | none => s
  | some b =>
    let stall := b.results.any (fun r => !r.join && r.status == 0x02)
    let n := b.results.length - b.carried
    let (s, sts) := (List.range b.joins.length).foldl (fun (acc : State × List Nat) i =>
      match b.joins[i]? with
      | none => acc
      | some j =>
        let ok := (b.results.filter (fun r => !r.join && r.status == 0)).length + (acc.2.filter (· == 0)).length
        let (st, t) := judgeJoin acc.1 mi m j (decide (i < b.carried)) stall (decide (4096 ≤ ok))
        (t, acc.2 ++ [st])) (s, [])
    let own := (List.range n).filter (fun i => match b.results[i]? with
      | some r => r.join && r.status == 0xFF
      | none => false)
    let status (i : Nat) (r : StepRes) : StepRes :=
      if n ≤ i then { r with status := sts.getD (i - n) 0 }
      else match own.findIdx? (· == i) with
        | some k => { r with status := sts.getD (b.carried + k) 0 }
        | none => r
    let res := (List.range b.results.length).filterMap (fun i => (b.results[i]?).map (status i))
    updBusy s (fun b => { b with results := res })

/-- The joins that stay PENDING after a boundary: deferred ones, and carried ones whose copy failed (R153). -/
def keepJoins (b : Boundary) : List JoinEnt :=
  b.joins.filter (fun j =>
    b.results.any (fun r => r.seq == j.seq && r.join && (r.status == 0x01 ||
      (r.status == 0x07 && ((b.joins.take b.carried).any (fun x => x.seq == j.seq))))))

/-- Phases 1 and 2 and, where every shard is on this device, phase 3: a boundary begun. -/
def boundaryBegin (s : State) (cmd : StepCmd) (m : MiDecl) (h es : List PWord) : State :=
  let mi := cmd.mi
  let w (i : Nat) : Word := (h.getD i ⟨0, true⟩).v
  let e (i k : Nat) : Word := (es.getD (4 * i + k) ⟨0, true⟩).v
  let carried := Tab.get [] s.firn.tabs.carried mi
  let journal := s.firn.tabs
  let s := setBusy s (some ⟨cmd, fld (w 1) 47 0, fld (w 2) 47 0, journal, [], [], [], 0, [], 0⟩)
  let s := phase1 s mi
  let carried := carried.filter (fun j => (seqOf s j.seq).state == 1)
  let n := es.length / 4
  let (s, res, joins) := (List.range n).foldl (fun (acc : State × List StepRes × List JoinEnt) i =>
    let w0 := e i 0
    let q := fld w0 15 0
    let kind := fld w0 18 16
    let last := kind % 2 == 1
    if 4 ≤ kind then (acc.1, acc.2.1 ++ [⟨q, 0x08, 0, last, false⟩], acc.2.2)
    else if 2 ≤ kind then
      match parseJoin w0 (e i 1) (e i 2) (e i 3) with
      | some j => (acc.1, acc.2.1 ++ [⟨q, 0xFF, j.p, last, true⟩], acc.2.2 ++ [j])
      | none => (acc.1, acc.2.1 ++ [⟨q, 0x08, 0, last, true⟩], acc.2.2)
    else if contOk w0 (e i 1) (e i 2) (e i 3) then
      let (st, t) := judgeCont acc.1 mi m q (fld w0 31 20)
      (t, acc.2.1 ++ [⟨q, st, fld w0 31 20, last, false⟩], acc.2.2)
    else (acc.1, acc.2.1 ++ [⟨q, 0x08, 0, last, false⟩], acc.2.2)) (s, [], [])
  let res := res ++ carried.map (fun j => ⟨j.seq, 0x01, j.p, j.last, true⟩)
  let whole := m.localCount == m.shards
  let s := updBusy s (fun b => { b with
    results := res, joins := carried ++ joins, carried := carried.length, agreed := if whole then 2 else 0 })
  if whole then phase3 s mi m else s

/-- The entries that run: OK continuing entries in descriptor order, then OK joins as judged. -/
def batchOf (b : Boundary) : List StepRes :=
  let n := b.results.length - b.carried
  b.results.filter (fun r => !r.join && r.status == 0)
    ++ (b.results.drop n).filter (fun r => r.status == 0)
    ++ (b.results.take n).filter (fun r => r.join && r.status == 0)

/-- The label of the page authority's own writes for a model instance (Table 07.9, R320). -/
def firnLabel (m : MiDecl) : Label := ⟨m.drift, m.owner⟩

/-- A 64-bit word written by the page authority. -/
def firnWrite (s : State) (lab : Label) (a : Nat) (v : Nat) : State :=
  busWrite s .firn lab a (PWord.clean (BitVec.ofNat 64 v))

/-- The batch list (Table 05.10). -/
def writeBatch (s : State) (lab : Label) (a step : Nat) (rs : List StepRes) : State :=
  let s := firnWrite (firnWrite s lab a (rs.length % 8192)) lab (a + 8) (step % 2 ^ 32)
  ((List.range rs.length).foldl (fun (acc : State × Nat) b =>
    match rs[b]? with
    | none => acc
    | some r =>
      let len := (seqOf acc.1 r.seq).len
      (firnWrite (firnWrite acc.1 lab (a + 16 + 16 * b) (r.seq + len * 2 ^ 16 + r.g * 2 ^ 37)) lab (a + 24 + 16 * b)
        (acc.2 % 2 ^ 32), acc.2 + r.g)) (s, 0)).1

/-- The result table (R148): a count word, then a 32-bit word each. -/
def writeResults (s : State) (lab : Label) (a : Nat) (rs : List StepRes) : State :=
  let put (t : State) (a v : Nat) : State := busWriteBytes .firn lab 2 t a ((bytesLE 4 v).map (fun b => (b, false)))
  (List.range rs.length).foldl (fun t i =>
    match rs[i]? with
    | none => t
    | some r => put t (a + 4 + 4 * i) (r.status + r.seq * 65536)) (put s a (rs.length % 8192))

/-- Pages whose STATE or FRAME a commit changed: those that differ from the journal. -/
def changedPages (s : State) (old : FirnTabs) : List Nat :=
  let keys := (s.firn.tabs.pages.map (·.1) ++ old.pages.map (·.1)).eraseDups
  keys.filter (fun n =>
    let x := Tab.get (⟨n, 0, 0, 0, 31⟩ : PageEnt) old.pages n
    let y := pageEnt s n
    x.state != y.state || x.frame != y.frame)

/-- Translation caches lose the changed pages, or everything where more than 256 changed (R143). -/
def tcInvalidate (s : State) (ns : List Nat) : State :=
  { s with firn := { s.firn with
    tc := if 256 < ns.length then [] else s.firn.tc.filter (fun e => !ns.contains e.page) } }

/-- An entry whose copy ended on a UC (R158): as it was before the boundary, with COPY_FAULT. -/
def copyFault (s : State) (mi : Nat) (m : MiDecl) (q : Nat) : State :=
  match s.firn.busy with
  | none => s
  | some b =>
    match b.results.find? (fun r => r.seq == q && r.status == 0) with
    | none => s
    | some r =>
      let s := if r.join then setSeq (releaseSeq s q) q
          (if (b.joins.take b.carried).any (fun x => x.seq == q) then Tab.get {} b.journal.seqs q else {})
        else undoCont s mi m q r.g
      updBusy s (fun b => { b with results := b.results.map (fun r =>
        if r.seq = q ∧ r.status = 0 then { r with status := 0x07 } else r) })

/-- A deferred join's sequence-table entry (R153): PENDING, holding no page. -/
def pendSeq (s : State) (m : MiDecl) (mi : Nat) (j : JoinEnt) : State :=
  setSeq s j.seq { state := 1, owner := m.owner, mi := mi, len := 0, kvh := 0, pcap := j.pcap, donor := j.donor,
                   donorEn := j.donorEn, plist := j.plist, stepLast := 0 }

/-- The commit (R154) of a boundary whose phases have ended. -/
def boundaryCommit (s : State) (mi : Nat) (m : MiDecl) (copyUc : List Nat) : State :=
  let s := copyUc.foldl (fun t q => copyFault t mi m q) s
  match s.firn.busy with
  | none => s
  | some b =>
    let s := s.firn.tabs.pages.foldl (fun t e =>
      if e.2.state = 1 ∧ ¬ t.firn.tabs.swaps.any (fun x => x.2 == e.1) then
        setPage t e.1 { e.2 with state := 2 } else t) s
    let step := Tab.get 0 s.firn.steps mi + 1
    let keep := keepJoins b
    let s := setTabs s { s.firn.tabs with carried := Tab.set s.firn.tabs.carried mi keep }
    let s := (b.joins.filter (fun j => !keep.any (fun k => k.seq == j.seq))).foldl (fun t j =>
      if (seqOf t j.seq).state = 1 then setSeq t j.seq {} else t) s
    let s := keep.foldl (fun t j => pendSeq t m mi j) s
    let run := batchOf b
    let s := run.foldl (fun t r =>
      let e := seqOf t r.seq
      setSeq t r.seq { e with state := if r.last then 3 else e.state, stepLast := step % 2 ^ 32 }) s
    let s := writeResults (writeBatch s (firnLabel m) b.batchAddr step run) (firnLabel m) b.resAddr b.results
    let s := tcInvalidate s (changedPages s b.journal)
    let s := { s with firn := { s.firn with steps := Tab.set s.firn.steps mi step } }
    let s := incWrap s Reg.FIRN_STEPS 64 1
    let s := firnCounts (setBusy s none)
    let has (c : Nat) : Bool := b.results.any (fun r => r.status == c)
    let low := (List.range 4).any (fun d =>
      decide (poolLo s d < poolHi s d) && decide (rdf s (Reg.FIRN_FREE d) 22 0 < rdf s Reg.FIRN_LOW_MARK 22 0))
    let mask : Word := 1 ||| (if has 0x02 then 2 else 0) ||| (if has 0x01 then 4 else 0)
      ||| (if has 0x07 then 8 else 0) ||| (if low then 32 else 0)
    notify (hwSet s Reg.FIRN_STATUS Reg.FIRN_EVCNT mask) "rime" "STEP_DONE" mi

/-- A boundary undone from its journal (R155). -/
def boundaryUndo (s : State) : State :=
  match s.firn.busy with
  | none => s
  | some b =>
    let s := b.slots.foldl (fun t x => setWord t x.1 x.2) s
    firnCounts (setBusy (setTabs s b.journal) none)

/-! ### Translation caches (R143) -/

/-- A page's translation filled in a die's cache; which way of a full set it takes is open. -/
def tcFill (s : State) (d n : Nat) : State :=
  let e := pageEnt s n
  let set_ := s.firn.tc.filter (fun x => x.die == d && x.page % 512 == n % 512)
  let tc := s.firn.tc.filter (fun x => !(x.die == d && x.page == n))
  let victim := (set_[Config.choice s.free % 8]?).map (·.page)
  let tc := if set_.length < 8 then tc else tc.filter (fun x => !(x.die == d && some x.page == victim))
  let s := if set_.length < 8 then s else drawn s
  { s with firn := { s.firn with tc := ⟨d, n, e.frame, pageState s n, e.cls, e.owner⟩ :: tc } }

/-- A miss served from the page map (R143): counted, and its entry filled. -/
def tcMiss (s : State) (d n : Nat) : State := incSat (tcFill s d n) (Reg.FIRN_TC_MISS d) 32 1

/-- A lookup in a die's cache, served from the page map where it misses. -/
def tcLookup (s : State) (d n : Nat) : TcEnt × Bool × State :=
  match s.firn.tc.find? (fun x => x.die == d && x.page == n) with
  | some e => (e, false, s)
  | none =>
    let e := pageEnt s n
    (⟨d, n, e.frame, pageState s n, e.cls, e.owner⟩, true, tcMiss s d n)

/-- TC_MISS_SERVE (R143): a miss of a compute die's cache served; a page already cached is no miss. -/
def execTcMissServe (die page : Nat) (s : State) : Result :=
  .next (if s.firn.tc.any (fun x => x.die == die && x.page == page) then s else tcMiss s die page)

end Sys2Proof.Machine
end

