-- ==== Sys2Proof/Machine/Attention.lean ====
section
/-! DEFINITION. The attention engine (R122-R134): job and merge descriptors with their checks, the rows a job takes,
appending, attending in blocks of 32 keys, the status record, and the merge of partial results. -/

namespace Sys2Proof.Machine

/-! ### Descriptors (Tables 05.1, 05.3) -/

/-- An attention job descriptor (Table 05.1). -/
structure AtDesc where
  op : Nat
  qFmt : Nat
  outFmt : Nat
  mask : Nat
  append : Bool
  lseEn : Bool
  posn : Bool
  qCl : Bool
  outCl : Bool
  hdim : Nat
  mi : Nat
  batchFirst : Nat
  batchCount : Nat
  kvhFirst : Nat
  kvhCount : Nat
  gq : Nat
  shardIndex : Nat
  shardCount : Nat
  scale : Nat
  window : Nat
  qAddr : Nat
  outAddr : Nat
  lseAddr : Nat
  knewAddr : Nat
  vnewAddr : Nat
  statusAddr : Nat
  stageCount : Nat
  batchAddr : Nat
  stageAddr : Nat
  rowSkip : Nat
  rowLimit : Nat
deriving DecidableEq, Repr

def parseAt (ws : List Word) : AtDesc :=
  let g (i hi lo : Nat) : Nat := fld (ws.getD i 0) hi lo
  let b (i k : Nat) : Bool := bit (ws.getD i 0) k
  { op := g 0 3 0, qFmt := g 0 8 4, outFmt := g 0 13 9, mask := g 0 15 14, append := b 0 16, lseEn := b 0 17,
    posn := b 0 18, qCl := b 0 19, outCl := b 0 20, hdim := g 0 29 21,
    mi := g 1 15 0, batchFirst := g 1 31 16, batchCount := g 1 44 32, kvhFirst := g 1 55 48, kvhCount := g 1 63 56,
    gq := g 2 4 0, shardIndex := g 2 13 8, shardCount := g 2 21 16, scale := g 2 63 32,
    window := g 3 31 0, qAddr := g 3 63 32, outAddr := g 4 31 0, lseAddr := g 4 63 32,
    knewAddr := g 5 31 0, vnewAddr := g 5 63 32, statusAddr := g 6 31 0, stageCount := g 6 47 32,
    batchAddr := g 7 47 0, stageAddr := g 8 31 0, rowSkip := g 9 31 0, rowLimit := g 9 63 32 }

def hdimOk (d : Nat) : Bool := d == 64 || d == 128 || d == 256

/-- The checks of R122 but for the head dimension. -/
def atEncoding (ws : List Word) (d : AtDesc) : Bool :=
  let z (i hi lo : Nat) : Bool := fld (ws.getD i 0) hi lo == 0
  z 0 63 30 && z 1 47 45 && z 2 7 5 && z 2 15 14 && z 2 31 22 && z 6 63 48 && z 7 63 48 && z 8 63 32
    && z 10 63 0 && z 11 63 0 && z 12 63 0 && z 13 63 0 && z 14 63 0 && z 15 63 0
    && d.op == 1 && (d.qFmt == 8 || d.qFmt == 10 || d.qFmt == 11)
    && (d.outFmt == 10 || d.outFmt == 11 || d.outFmt == 12) && decide (d.mask ≤ 2)
    && decide (d.batchCount ≤ 4096) && decide (1 ≤ d.kvhCount) && decide (1 ≤ d.gq) && decide (d.gq ≤ 16)
    && (!d.posn || (decide (1 ≤ d.shardCount) && decide (d.shardCount ≤ 32) && decide (d.shardIndex < d.shardCount)))
    && decide (d.stageCount ≤ 64)

def atOk (ws : List Word) (d : AtDesc) : Bool := atEncoding ws d && hdimOk d.hdim

/-! ### A job's progress -/

/-- What a job carries along: the state, why it has stopped (1 page check, 2 class, 4 poison consumed), the logical
pages read, the translation-cache misses and the empty rows. -/
structure AtAcc where
  st : State
  stop : Option Nat := none
  pages : List Nat := []
  miss : Nat := 0
  empty : Nat := 0
deriving DecidableEq, Repr

/-- Words read by the ATE from a store (its core's or its cluster's) at a byte offset, low three bits ignored. -/
def storeWords (n : Nat) (cl : Bool) : Nat → State → Nat → List PWord × State
  | 0, s, _ => ([], s)
  | k + 1, s, a =>
    let (w, s) := if cl then extRead s n .ate (.engine n) (clusterStoreBase (clusterOf n) + a % 0x800000 / 8 * 8)
      else (csRead s n a, s)
    let (ws, s) := storeWords n cl k s (a + 8)
    (w :: ws, s)

/-- Words read by the ATE from device memory. -/
def dramWords (n : Nat) : Nat → State → Nat → List PWord × State
  | 0, s, _ => ([], s)
  | k + 1, s, a =>
    let s := if a % 64 < 8 then lineRead s (coreLabel s n) a else s
    let (w, s) := extRead s n .ate (.engine n) a
    let (ws, s) := dramWords n k s (a + 8)
    (w :: ws, s)

/-- The elements of words in a format, and whether any word is poisoned. -/
def wordElems (fmt : Nat) (ws : List PWord) : List FVal × Bool :=
  let w := elemBits fmt
  (ws.flatMap (fun x => (chunksOf w (64 / w) x.v.toNat).map (elemVal fmt)), ws.any (·.p))

/-- Poison consumed by the job stops it (R128). -/
def AtAcc.poisoned (a : AtAcc) (n addr : Nat) : AtAcc := { a with st := poisonConsumed a.st n addr, stop := some 4 }

/-- The logical page of a slot; a slot that is not VALID fails the page check. -/
def atSlot (a : AtAcc) (n : Nat) (e : SeqEnt) (h j : Nat) : AtAcc × Nat :=
  let p := slotAddr e h j
  let (ws, s) := dramWords n 1 a.st (p / 8 * 8)
  let w := ws.headD ⟨0, true⟩
  let v := w.v.toNat / 2 ^ (8 * (p % 8)) % 2 ^ 32
  if w.p then ({ a with st := s }.poisoned n p, 0)
  else if v / 2 ^ 31 = 0 then ({ a with st := s, stop := some 1 }, 0)
  else ({ a with st := s }, v % 2 ^ 22)

/-- A page's translation; a twinned primary hands what it found to its secondary (Table 09.2). -/
def atLookup (a : AtAcc) (n page : Nat) : AtAcc × TcEnt :=
  let d := dieOfCore n
  if secondary a.st n then
    let (w, s) := takeBcast a.st n .ate
    ({ a with st := s, miss := a.miss + fld w.v 34 34 },
      ⟨d, page, fld w.v 21 0, fld w.v 24 22, fld w.v 28 25, fld w.v 33 29⟩)
  else
    let (e, m, s) := tcLookup a.st d page
    let w : Word := BitVec.ofNat 64
      (e.frame + e.state * 2 ^ 22 + e.cls * 2 ^ 25 + e.owner * 2 ^ 29 + b2n m * 2 ^ 34)
    ({ a with st := putBcast s n .ate (PWord.clean w), miss := a.miss + b2n m }, e)

/-- The frame of a page that passes the check of R131. -/
def atFrame (a : AtAcc) (n : Nat) (cls hdim page : Nat) : AtAcc × Nat :=
  let (a, e) := atLookup a n page
  if (e.state ≠ 2 ∧ e.state ≠ 3) ∨ e.owner ≠ (coreLabel a.st n).inst then ({ a with stop := some 1 }, 0)
  else if e.cls ≠ cls ∨ classDim cls ≠ hdim then ({ a with stop := some 2 }, 0)
  else (a, e.frame)

/-- The stage table: logical page and cluster-store address of each entry (R130). -/
def stageTab (ws : List PWord) : List (Nat × Nat) := ws.map (fun w => (fld w.v 21 0, fld w.v 63 32))

/-- The class of a sequence, 0 where its model instance is not known. -/
def seqClass (s : State) (e : SeqEnt) : Nat :=
  match Tab.find s.firn.mis e.mi with
  | some m => m.cls
  | none => 0

/-- K and V of a sequence's position for a device head: elements and poison. -/
def atKv (a : AtAcc) (n : Nat) (d : AtDesc) (stage : List (Nat × Nat)) (q h t : Nat) :
    AtAcc × List FVal × List FVal × Bool :=
  let e := seqOf a.st q
  let cls := seqClass a.st e
  if cls = 0 ∨ classDim cls ≠ d.hdim then ({ a with stop := some 2 }, [], [], false)
  else
    let kb := classKb cls
    let off := t % classT cls * (d.hdim * kb)
    let (a, page) := atSlot a n e h (t / classT cls)
    if a.stop.isSome then (a, [], [], false)
    else
      let words := d.hdim * kb / 8
      let a := { a with pages := if a.pages.contains page then a.pages else page :: a.pages }
      match stage.find? (fun x => x.1 == page) with
      | some x =>
        let (ks, s) := storeWords n true words a.st (x.2 + off)
        let (vs, s) := storeWords n true words s (x.2 + 16384 + off)
        let k := wordElems (classFmt cls) ks
        let v := wordElems (classFmt cls) vs
        ({ a with st := s }, k.1, v.1, k.2 || v.2)
      | none =>
        let (a, f) := atFrame a n cls d.hdim page
        if a.stop.isSome then (a, [], [], false)
        else
          let (ks, s) := dramWords n words a.st (frameAddr f + off)
          let (vs, s) := dramWords n words s (frameAddr f + 16384 + off)
          let k := wordElems (classFmt cls) ks
          let v := wordElems (classFmt cls) vs
          ({ a with st := s }, k.1, v.1, k.2 || v.2)

/-! ### Arithmetic (R125-R127) -/

def exp2F (v : FVal) : FVal := fp32.decode (transcend fp32 0 (fp32.encode .rne v))
def log2F (v : FVal) : FVal := fp32.decode (transcend fp32 1 (fp32.encode .rne v))

/-- dot(q, k): products exact, sums in ascending order, each rounded. -/
def dotF (q k : List FVal) : FVal :=
  (List.zip q k).foldl (fun acc x => f32 (acc.add (x.1.mul x.2))) (.fin false 0 0)

def fmaF (a b c : FVal) : FVal := f32 ((a.mul b).add c)

/-- The running maximum, sum and output of a row. -/
structure AttAcc where
  m : FVal := .inf true
  l : FVal := .fin false 0 0
  o : List FVal
deriving DecidableEq, Repr

/-- One block of at most 32 admitted positions: scores and values (R125). -/
def attBlock (a : AttAcc) (b : List (FVal × List FVal)) : AttAcc :=
  let mb := b.foldl (fun m x => m.max x.1) a.m
  if mb = .inf true then a
  else
    let c := if a.m = .inf true then .fin false 0 0 else exp2F (f32sub a.m mb)
    let a := { a with l := f32mul a.l c, o := a.o.map (fun x => f32mul x c) }
    let a := b.foldl (fun a x =>
      let pr := exp2F (f32sub x.1 mb)
      { a with l := f32add a.l pr, o := List.zipWith (fun o v => fmaF pr v o) a.o x.2 }) a
    { a with m := mb }

/-- A list cut into blocks of 32. -/
def blocks32 {α : Type} (l : List α) : List (List α) :=
  (List.range (ceilDiv l.length 32)).map (fun i => (l.drop (32 * i)).take 32)

/-- A row's output elements, its log-sum-exp and whether it counts as empty, from scores and values in order. -/
def attRow (hdim : Nat) (xs : List (FVal × List FVal)) : List FVal × FVal × Bool :=
  if xs.any (fun x => x.1 == .nan || x.1 == .inf false) then (List.replicate hdim .nan, .nan, false)
  else
    let a := (blocks32 xs).foldl attBlock { o := List.replicate hdim (.fin false 0 0) }
    match a.l with
    | .fin _ 0 _ => (List.replicate hdim (.fin false 0 0), .inf true, true)
    | l => (a.o.map (fun o => f32div o l), f32add a.m (log2F l), false)

/-- A vector's bytes in an output format, each with the vector's poison. -/
def outBytes (fmt : Nat) (p : Bool) (vs : List FVal) : List (Byte × Bool) :=
  vs.flatMap (fun v => (bytesLE (fmtBytes fmt)
    (moutCell false fmt 0 0 (BitVec.ofNat 32 (fp32.encode .rne v)))).map (fun b => (b, p)))

/-- An FP32 value's four bytes. -/
def f32Bytes (p : Bool) (v : FVal) : List (Byte × Bool) := (bytesLE 4 (fp32.encode .rne v)).map (fun b => (b, p))

/-! ### The job -/

/-- A batch entry: sequence, LEN, G, ROW0 (Table 05.10). -/
structure BatchEnt where
  seq : Nat
  len : Nat
  g : Nat
  row0 : Nat
deriving DecidableEq, Repr

/-- A row the job takes: its number, its entry, its token position. -/
structure AtRow where
  rho : Nat
  ent : BatchEnt
  pos : Nat
deriving DecidableEq, Repr

/-- The rows a job takes of its entries (R123). -/
def atRows (d : AtDesc) (es : List BatchEnt) : List AtRow :=
  match es.head? with
  | none => []
  | some f => es.flatMap (fun e => (List.range e.g).filterMap (fun r =>
      let c := e.row0 - f.row0 + r
      if d.rowSkip ≤ c ∧ (d.rowLimit = 0 ∨ c < d.rowSkip + d.rowLimit) then
        some ⟨c - d.rowSkip, e, e.len - e.g + r⟩ else none))

/-- The positions a row admits (R124); `t` is the tokens a page of its class. -/
def admitted (d : AtDesc) (t : Nat) (r : AtRow) : List Nat :=
  let lo := if d.mask = 2 then r.pos + 1 - d.window else 0
  let hi := if d.mask = 1 then r.ent.len else r.pos + 1
  ((List.range (hi - lo)).map (· + lo)).filter (fun p => !d.posn || p / t % d.shardCount == d.shardIndex)

/-- The new K and V of a row and a head written into their page slot (R129). -/
def atAppend (a : AtAcc) (n : Nat) (d : AtDesc) (r : AtRow) (h : Nat) : AtAcc :=
  if a.stop.isSome then a
  else
    let e := seqOf a.st r.ent.seq
    let cls := seqClass a.st e
    if cls = 0 ∨ classDim cls ≠ d.hdim then { a with stop := some 2 }
    else
      let t := classT cls
      if d.posn ∧ r.pos / t % d.shardCount ≠ d.shardIndex then a
      else
        let (a, page) := atSlot a n e (d.kvhFirst + h) (r.pos / t)
        if a.stop.isSome then a
        else
          let (a, f) := atFrame a n cls d.hdim page
          if a.stop.isSome then a
          else
            let len := d.hdim * classKb cls
            let src := (r.rho * d.kvhCount + h) * len
            let dst := frameAddr f + r.pos % t * len
            let put (s : State) (from_ dest : Nat) : State :=
              forUpTo (len / 8) (fun i st =>
                let st := if i % 8 = 0 then driftAccess st (coreLabel st n) (dest + 8 * i) else st
                extWrite st n .ate (.engine n) (coreLabel st n) (dest + 8 * i) (csRead st n (from_ + 8 * i))) s
            { a with st := put (put a.st (d.knewAddr + src) dst) (d.vnewAddr + src) (dst + 16384) }

/-- One query vector: its row, local head and group member. -/
def atVector (a : AtAcc) (n : Nat) (d : AtDesc) (stage : List (Nat × Nat)) (r : AtRow) (h g : Nat) : AtAcc :=
  if a.stop.isSome then a
  else
    let iota := (r.rho * d.kvhCount + h) * d.gq + g
    let qb := fmtBytes d.qFmt
    let (qs, s) := storeWords n d.qCl (d.hdim * qb / 8) a.st (d.qAddr + iota * (d.hdim * qb))
    let q := wordElems d.qFmt qs
    let cls := seqClass s (seqOf s r.ent.seq)
    let t := if cls = 0 then 1 else classT cls
    let (a, kv) := (admitted d t r).foldl (fun (acc : AtAcc × List (FVal × List FVal × Bool)) p =>
      if acc.1.stop.isSome then acc
      else
        let (a, k, v, po) := atKv acc.1 n d stage r.ent.seq (d.kvhFirst + h) p
        (a, acc.2 ++ [(f32mul (dotF q.1 k) (fp32.decode d.scale), v, po)])) ({ a with st := s }, [])
    if a.stop.isSome then a
    else
      let (o, lse, e) := attRow d.hdim (kv.map (fun x => (x.1, x.2.1)))
      let p := q.2 || kv.any (fun x => x.2.2)
      let ob := fmtBytes d.outFmt
      let s := storePut n .ate d.outCl (d.hdim * ob / 8 + 1) a.st (d.outAddr + iota * (d.hdim * ob)) (outBytes d.outFmt p o)
      let s := if d.lseEn then storePut n .ate d.outCl 2 s (d.lseAddr + iota * 4) (f32Bytes p lse) else s
      { a with st := s, empty := a.empty + b2n e }

/-- The status record (Table 05.2). -/
def atStatus (s : State) (n addr empty result pages miss : Nat) : State :=
  let e := if empty < 2 ^ 32 then empty else 2 ^ 32 - 1
  csWriteN s n .ate (addr / 8 * 8)
    [PWord.clean (BitVec.ofNat 64 (e + result * 2 ^ 32)), PWord.clean (BitVec.ofNat 64 (pages + miss * 2 ^ 32))]

/-- The batch entries a job covers, or the poison that stops it. -/
def atBatch (a : AtAcc) (n : Nat) (d : AtDesc) : AtAcc × List BatchEnt :=
  let (h, s) := dramWords n 1 a.st (d.batchAddr / 8 * 8)
  let w := h.headD ⟨0, true⟩
  if w.p then ({ a with st := s }.poisoned n d.batchAddr, [])
  else
    let total := fld w.v 12 0
    let left := total - d.batchFirst
    let k := if d.batchCount = 0 ∨ left < d.batchCount then left else d.batchCount
    let (ws, s) := dramWords n (2 * k) s (d.batchAddr / 8 * 8 + 16 + 16 * d.batchFirst)
    let a := { a with st := s }
    if ws.any (·.p) then (a.poisoned n d.batchAddr, [])
    else (a, (List.range k).map (fun b =>
      let x := (ws.getD (2 * b) ⟨0, true⟩).v
      let y := (ws.getD (2 * b + 1) ⟨0, true⟩).v
      ⟨fld x 15 0, fld x 36 16, fld x 57 37, fld y 31 0⟩))

/-- A job whose descriptor passed its checks. -/
def atJob (s : State) (n : Nat) (d : AtDesc) : State :=
  let (a, es) := atBatch { st := s } n d
  let st := csReadN a.st n (d.stageAddr / 8 * 8) d.stageCount
  let a := if a.stop.isNone && st.any (·.p) then a.poisoned n d.stageAddr else a
  let rows := atRows d es
  let heads := List.range d.kvhCount
  let a := if d.append then rows.foldl (fun a r => heads.foldl (fun a h => atAppend a n d r h) a) a else a
  let a := rows.foldl (fun a r => heads.foldl (fun a h =>
    (List.range d.gq).foldl (fun a g => atVector a n d (stageTab st) r h g) a) a) a
  match a.stop with
  | some 4 => a.st
  | r => atStatus a.st n d.statusAddr a.empty (r.getD 0) a.pages.length a.miss

/-- AT.RUN on its captured address. -/
def atRunOp (s : State) (n : Nat) (a : PWord) : State :=
  if a.p then poisonConsumed s n 0
  else
    let base := align64 (a.v.toNat % 0x100000)
    let ws := csReadN s n base 16
    if ws.any (·.p) then poisonConsumed s n base
    else
      let vs := ws.map (·.v)
      let d := parseAt vs
      if atOk vs d then atJob s n d else badop (atStatus s n d.statusAddr 0 3 0 0) n

/-! ### Merging (R133, R134) -/

/-- A merge descriptor (Table 05.3). -/
structure MergeDesc where
  op : Nat
  outFmt : Nat
  num : Nat
  partCl : Bool
  outCl : Bool
  lseEn : Bool
  rows : Nat
  hdim : Nat
  partAddr : Nat
  partPitch : Nat
  plseAddr : Nat
  outAddr : Nat
  lseAddr : Nat
  statusAddr : Nat
deriving DecidableEq, Repr

def parseMerge (ws : List Word) : MergeDesc :=
  let g (i hi lo : Nat) : Nat := fld (ws.getD i 0) hi lo
  let b (i k : Nat) : Bool := bit (ws.getD i 0) k
  { op := g 0 3 0, outFmt := g 0 8 4, num := g 0 13 9, partCl := b 0 14, outCl := b 0 15, lseEn := b 0 16,
    rows := g 1 15 0, hdim := g 1 24 16, partAddr := g 2 31 0, partPitch := g 2 63 32, plseAddr := g 3 31 0,
    outAddr := g 3 63 32, lseAddr := g 4 31 0, statusAddr := g 4 63 32 }

def mergeEncoding (ws : List Word) (d : MergeDesc) : Bool :=
  let z (i hi lo : Nat) : Bool := fld (ws.getD i 0) hi lo == 0
  z 0 63 17 && z 1 63 25 && z 5 63 0 && z 6 63 0 && z 7 63 0 && d.op == 2
    && (d.outFmt == 10 || d.outFmt == 11 || d.outFmt == 12) && decide (2 ≤ d.num) && decide (d.num ≤ 16)
    && decide (1 ≤ d.rows)

def mergeOk (ws : List Word) (d : MergeDesc) : Bool := mergeEncoding ws d && hdimOk d.hdim

/-- The merge of one vector's partials (lse, part): elements, log-sum-exp, empty or not. -/
def mergeRow (hdim : Nat) (ps : List (FVal × List FVal)) : List FVal × FVal × Bool :=
  let m := ps.foldl (fun m x => m.max x.1) (.inf true)
  if m = .nan then (List.replicate hdim .nan, .nan, false)
  else if m = .inf true then (List.replicate hdim (.fin false 0 0), .inf true, true)
  else
    let a := ps.foldl (fun (a : AttAcc) x =>
      let w := exp2F (f32sub x.1 m)
      { a with l := f32add a.l w, o := List.zipWith (fun o v => fmaF w v o) a.o x.2 })
      { m := m, o := List.replicate hdim (.fin false 0 0) }
    (a.o.map (fun o => f32div o a.l), f32add m (log2F a.l), false)

/-- An FP32 value of a store at a byte offset. -/
def storeF32 (s : State) (n : Nat) (cl : Bool) (a : Nat) : FVal × Bool × State :=
  let (ws, s) := storeWords n cl 1 s a
  let w := ws.headD ⟨0, true⟩
  (fp32.decode (w.v.toNat / 2 ^ (8 * (a % 8 / 4 * 4)) % 2 ^ 32), w.p, s)

/-- Vector `k` merged: the state and the empty-row count. -/
def mergeVector (s : State) (n : Nat) (d : MergeDesc) (k empty : Nat) : State × Nat :=
  let (s, ps) := (List.range d.num).foldl (fun (acc : State × List (FVal × List FVal × Bool)) i =>
    let (l, lp, s) := storeF32 acc.1 n d.partCl (d.plseAddr + (i * d.rows + k) * 4)
    let (ws, s) := storeWords n d.partCl (d.hdim / 2) s (d.partAddr + i * d.partPitch + k * d.hdim * 4)
    let v := wordElems 12 ws
    (s, acc.2 ++ [(l, v.1, lp || v.2)])) (s, [])
  let (o, lse, e) := mergeRow d.hdim (ps.map (fun x => (x.1, x.2.1)))
  let p := ps.any (fun x => x.2.2)
  let ob := fmtBytes d.outFmt
  let s := storePut n .ate d.outCl (d.hdim * ob / 8 + 1) s (d.outAddr + k * (d.hdim * ob)) (outBytes d.outFmt p o)
  (if d.lseEn then storePut n .ate d.outCl 2 s (d.lseAddr + k * 4) (f32Bytes p lse) else s, empty + b2n e)

/-- AT.MERGE on its captured address. -/
def atMergeOp (s : State) (n : Nat) (a : PWord) : State :=
  if a.p then poisonConsumed s n 0
  else
    let base := align64 (a.v.toNat % 0x100000)
    let ws := csReadN s n base 8
    if ws.any (·.p) then poisonConsumed s n base
    else
      let vs := ws.map (·.v)
      let d := parseMerge vs
      if mergeOk vs d then
        let (s, e) := (List.range d.rows).foldl (fun acc k => mergeVector acc.1 n d k acc.2) (s, 0)
        atStatus s n d.statusAddr e 0 0 0
      else badop (atStatus s n d.statusAddr 0 3 0 0) n

/-! ### The commands -/

/-- AT_RUN (R122): the instruction on the address register named. -/
def execAtRun (core a : Nat) (s : State) : Result := .next (atRunOp s core (readA s core a))

/-- AT_MERGE (R133). -/
def execAtMerge (core a : Nat) (s : State) : Result := .next (atMergeOp s core (readA s core a))

end Sys2Proof.Machine
end

