-- ==== Sys2Proof/Machine/Movers.lean ====
section
/-! DEFINITION. Data movers (R189-R204, R337): address forms, descriptors and their checks, moving, triggering,
pacing, stopping and completion. A channel moves a descriptor's words in the step that fetches it (on a paced
channel, in the step of each request); what the table's completion events decide is when the registers say so. -/

namespace Sys2Proof.Machine

def getChan (s : State) (c : ChanId) : ChanSt := Tab.get {} s.chans (chanKey c)
def setChan (s : State) (c : ChanId) (x : ChanSt) : State := { s with chans := Tab.set s.chans (chanKey c) x }
def updChan (s : State) (c : ChanId) (f : ChanSt → ChanSt) : State := setChan s c (f (getChan s c))

def chanBusy (s : State) (c : ChanId) : Bool := rdb s (Reg.MV_STATUS c) 0
def chanArmed (s : State) (c : ChanId) : Bool := rdb s (Reg.MV_STATUS c) 1

/-- The label of a channel's requests: MV_CTL.DRIFT and INST (R205). -/
def chanLabel (s : State) (c : ChanId) : Label := ⟨rdf s (Reg.MV_CTL c) 24 22, rdf s (Reg.MV_CTL c) 29 25⟩

/-- The requester a channel is (Table 12.3): it keeps the SECURE value it started with (R337). -/
def chanWho (s : State) (c : ChanId) : Requester := .chan c (getChan s c).sec

/-! ### Address forms (R193) -/

/-- Where an address of a channel leads: a fault code of Table 07.6, or a device address with the bytes left from it
to the end of its store or region and whether writes are allowed. -/
inductive MvPlace where
  | bad (code : Nat)
  | at (phys left : Nat) (wr : Bool)
deriving DecidableEq, Repr

/-- A DRAM region window (Table 07.8). -/
def mvWindow (s : State) (w0 w1 : Nat) (off : Nat) : MvPlace :=
  let size := rdf s w1 40 12 * 4096
  if rdb s w0 49 ∧ off < size then .at (rdf s w0 47 12 * 4096 + off) (size - off) (rdb s w0 48) else .bad 1

/-- The address forms of Table 07.5; a hub channel takes any device physical address. -/
def mvPlace (s : State) (c : ChanId) (a : Nat) : MvPlace :=
  let top := a / 2 ^ 40
  let off := a % 2 ^ 40
  match c with
  | .hub _ => .at a (2 ^ 48 - a) true
  | .core n _ =>
    if top = 0xFC then (if off < 0x100000 then .at (coreStoreBase n + off) (0x100000 - off) true else .bad 1)
    else if top = 0xFD then
      (if off < 0x800000 then .at (clusterStoreBase (clusterOf n) + off) (0x800000 - off) true else .bad 1)
    else if 0xF0 ≤ top ∧ top ≤ 0xF7 then .bad 2
    else if 0xE0 ≤ top ∧ top ≤ 0xEF then
      mvWindow s (Reg.CORE_WINDOW n (top - 0xE0) 0) (Reg.CORE_WINDOW n (top - 0xE0) 1) off
    else .bad 1
  | .cluster k _ =>
    if top = 0xFC then .bad 2
    else if top = 0xFD then
      (if off < 0x800000 then .at (clusterStoreBase k + off) (0x800000 - off) true else .bad 1)
    else if 0xF0 ≤ top ∧ top ≤ 0xF7 then
      (if off < 0x100000 then .at (coreStoreBase (k * 8 + top - 0xF0) + off) (0x100000 - off) true else .bad 1)
    else if 0xE0 ≤ top ∧ top ≤ 0xEF then
      mvWindow s (Reg.CLU_WINDOW k (top - 0xE0) 0) (Reg.CLU_WINDOW k (top - 0xE0) 1) off
    else .bad 1

/-! ### Descriptors (R192, R194) -/

/-- The eight words of a descriptor as fields (Table 07.7). -/
def parseDesc (ws : List Word) : Desc :=
  let w (i : Nat) : Word := ws.getD i 0
  { src := if bit (w 5) 0 then (w 0).toNat else fld (w 0) 47 0, dst := fld (w 1) 47 0,
    rowBytes := fld (w 2) 31 0, rows := fld (w 2) 47 32,
    srcPitch := fld (w 3) 31 0, dstPitch := fld (w 3) 63 32, next := fld (w 4) 47 0,
    fill := bit (w 5) 0, irq := bit (w 5) 1, sigEn := bit (w 5) 2, sigSem := fld (w 5) 15 8 }

/-- Are the reserved bits of a descriptor 0? -/
def descReserved (ws : List Word) : Bool :=
  let w (i : Nat) : Word := ws.getD i 0
  (bit (w 5) 0 || fld (w 0) 63 48 == 0) && fld (w 1) 63 48 == 0 && fld (w 2) 63 48 == 0 && fld (w 4) 63 48 == 0
    && fld (w 5) 7 3 == 0 && fld (w 5) 63 16 == 0 && w 6 == 0 && w 7 == 0

/-- Do sizes and pitches keep Table 07.7? -/
def descSizes (d : Desc) : Bool :=
  decide (d.rowBytes % 8 = 0) && decide (d.srcPitch % 8 = 0) && decide (d.dstPitch % 8 = 0) &&
    (decide (d.rows ≤ 1) || (decide (d.rowBytes ≤ d.srcPitch) && decide (d.rowBytes ≤ d.dstPitch)))

/-- Does a descriptor move nothing? -/
def descEmpty (d : Desc) : Bool := d.rowBytes == 0 || d.rows == 0

/-- The bytes from an operand's first to its last (R194). -/
def extentLen (d : Desc) (pitch : Nat) : Nat := (d.rows - 1) * pitch + d.rowBytes

/-- The code an operand's place raises, if any. -/
def placeCodes (p : MvPlace) (len : Nat) (write : Bool) : List Nat :=
  match p with
  | .bad c => [c]
  | .at _ left wr => if left < len ∨ (write ∧ wr = false) then [1] else []

/-- The code a next-descriptor address raises, if any: only its form is judged. -/
def nextCodes (p : MvPlace) : List Nat :=
  match p with
  | .bad c => [c]
  | .at _ _ _ => []

/-- Does a run of bytes meet [lo, hi)? -/
def meets (a len lo hi : Nat) : Bool := decide (a < hi) && decide (lo < a + len) && decide (0 < len)

/-- Is a run of device addresses forbidden by the secure attribute (R337)? -/
def secForbidden (s : State) (sec : Bool) (a len : Nat) : Bool :=
  (!sec && meets a len dramBase (watermark s)) ||
  (List.range 8).any (fun n => rdb s (Reg.ENCL_A n) 51 &&
    meets a len (rdf s (Reg.ENCL_A n) 47 12 * 4096)
      ((rdf s (Reg.ENCL_A n) 47 12 + rdf s (Reg.ENCL_B n) 28 12) * 4096))

def secCodes (s : State) (sec : Bool) (p : MvPlace) (len : Nat) : List Nat :=
  match p with
  | .at a _ _ => if secForbidden s sec a len then [6] else []
  | .bad _ => []

/-- Every code of Table 07.6 a descriptor raises. -/
def descCodes (s : State) (c : ChanId) (ws : List Word) (d : Desc) : List Nat :=
  let sec := (getChan s c).sec
  let clu := match c with
    | .cluster _ _ => true
    | _ => false
  let ps := mvPlace s c d.src
  let pd := mvPlace s c d.dst
  let ls := extentLen d d.srcPitch
  let ld := extentLen d d.dstPitch
  (if descReserved ws && descSizes d && (!d.sigEn || clu) then [] else [2])
  ++ (if d.next = 0 then [] else nextCodes (mvPlace s c d.next) ++ secCodes s sec (mvPlace s c d.next) 64)
  ++ (if descEmpty d then [] else
      (if d.fill then [] else placeCodes ps ls false ++ secCodes s sec ps ls)
      ++ placeCodes pd ld true ++ secCodes s sec pd ld
      ++ (match d.fill, ps, pd with
          | false, .at a _ _, .at b _ _ => if meets a ls b (b + ld) then [3] else []
          | _, _, _ => []))

/-- The lowest of some codes (R194). -/
def lowest (l : List Nat) : Option Nat := l.min?

/-- A line held by the channel is released (R200), and requests still pending are discarded (R199). -/
def mvRelease (s : State) (c : ChanId) : State :=
  wrf { s with lines := s.lines.filter (fun e => e.2 != chanKey c) } (Reg.MV_STATUS c) 31 24 0

/-- A refused descriptor or start (R194, Table 07.6). -/
def mvFault (s : State) (c : ChanId) (code : Nat) : State :=
  let st := Reg.MV_STATUS c
  let a := rdn s (Reg.MV_DESC c)
  let s := wrf (wrf (wrf s st 0 0 0) st 1 1 0) st 23 16 code
  let s := hwSetBit s st (Reg.MV_EVCNT c) 4
  let s := mvRelease (updChan s c (fun x => { x with fetch := false, fin := none, left := 0, stop := false })) c
  if code = 5 then s
  else match c with
    | .core n _ => detect s .core n .uc (if code = 4 then 0x21 else 0x24) a
    | .cluster k _ => detect s .cluster k .uc (if code = 4 then 0x43 else 0x44) a
    | .hub _ => detect s .package 0 .uc (if code = 4 then 0x93 else 0x92) a

/-- Who is told under IRQ_EN: the die controller, or the hub processor that started the channel. -/
def mvNotify (s : State) (c : ChanId) : State :=
  if rdb s (Reg.MV_CTL c) 31 then
    match c with
    | .core n _ => notify s "die controller" "MV_STATUS" (4 + dieOfCore n)
    | .cluster k _ => notify s "die controller" "MV_STATUS" (4 + dieOfCluster k)
    | .hub _ => notify s "rime" "MV_STATUS" (getChan s c).starter
  else s

/-! ### Moving words (R195) -/

/-- The core store an address lies in, if any. -/
def inCoreStore (a : Nat) : Option (Nat × Nat) :=
  match placeOf a with
  | .coreStore n off => some (n, off)
  | _ => none

/-- A word read by a channel. A core channel reads its own store directly and the rest as an access that leaves the
core (Table 09.2). -/
def mvRead (s : State) (c : ChanId) (a : Nat) : PWord × State :=
  match c with
  | .core n _ =>
    if coreStoreBase n ≤ a ∧ a < coreStoreBase n + 0x100000 then (getWord s (a / 8 * 8), s)
    else extRead (if a % 64 < 8 then lineRead s (chanLabel s c) a else s) n .cdm (chanWho s c) a
  | _ => busRead (if a % 64 < 8 then lineRead s (chanLabel s c) a else s) (chanWho s c) a

/-- A write into the store of a twinned primary from outside is performed in its secondary identically (Table
09.2). -/
def mirrored (s : State) (a : Nat) (w : PWord) : State :=
  match inCoreStore a with
  | some (n, off) =>
    if twinned s n && decide (n % 2 = 0) then setWord s (coreStoreBase (n + 1) + off / 8 * 8) w else s
  | none => s

/-- A word written by a channel. -/
def mvWrite (s : State) (c : ChanId) (a : Nat) (w : PWord) : State :=
  match c with
  | .core n _ =>
    if coreStoreBase n ≤ a ∧ a < coreStoreBase n + 0x100000 then csWrite s n .cdm (a - coreStoreBase n) w
    else extWrite (if a % 64 < 8 then driftAccess s (chanLabel s c) a else s) n .cdm (chanWho s c) (chanLabel s c) a w
  | _ =>
    mirrored (busWrite (if a % 64 < 8 then driftAccess s (chanLabel s c) a else s) (chanWho s c) (chanLabel s c) a w)
      a w

/-- The device address of a place, 0 where it has none. -/
def MvPlace.phys : MvPlace → Nat
  | .at a _ _ => a
  | .bad _ => 0

/-- Word `i` of a descriptor moved: rows ascending, each row in ascending address. -/
def mvMoveWord (c : ChanId) (d : Desc) (sp dp : Nat) (i : Nat) (s : State) : State :=
  let per := d.rowBytes / 8
  let so := i / per * d.srcPitch + i % per * 8
  let do_ := i / per * d.dstPitch + i % per * 8
  let (w, s) := if d.fill then (PWord.clean (BitVec.ofNat 64 d.src), s) else mvRead s c (sp + so)
  mvWrite s c (dp + do_) w

/-- Words `first` to `first + n - 1` of a descriptor moved. -/
def mvMove (s : State) (c : ChanId) (d : Desc) (first n : Nat) : State :=
  let sp := (mvPlace s c d.src).phys
  let dp := (mvPlace s c d.dst).phys
  forUpTo n (fun i t => mvMoveWord c d sp dp (first + i) t) s

/-! ### Completion (R196, R197, R201, R204) -/

/-- A descriptor has completed: DESC_IRQ, its signal, then the chain's end, a stop, or the next descriptor. -/
def descDone (s : State) (c : ChanId) (d : Desc) : State :=
  let st := Reg.MV_STATUS c
  let ev := Reg.MV_EVCNT c
  let x := getChan s c
  let s := setChan s c { x with fin := none, left := 0 }
  let s := if d.irq then mvNotify (hwSetBit s st ev 5) c else s
  let s := match c with
    | .cluster k _ => if d.sigEn then semSignalQuiet s (.cluster k d.sigSem) 1 else s
    | _ => s
  if x.regMode ∨ d.next = 0 then
    let s := mvNotify (hwSetBit (wrf s st 0 0 0) st ev 2) c
    let s := mvRelease (updChan s c (fun y => { y with fetch := false, stop := false })) c
    if x.trig ∧ ¬ x.stop then wrf s st 1 1 1 else s
  else if x.stop then
    let s := hwSetBit (wrf s st 0 0 0) st ev 3
    mvRelease (updChan s c (fun y => { y with fetch := false, stop := false })) c
  else updChan s c (fun y => { y with fetch := true })

/-- One burst of a paced channel (R199). -/
def mvBurst (s : State) (c : ChanId) : State :=
  let x := getChan s c
  match x.fin with
  | none => s
  | some d =>
    if x.left = 0 ∨ rdf s (Reg.MV_STATUS c) 31 24 = 0 then s
    else
      let burst := 64 * 2 ^ rdf s (Reg.MV_CTL c) 21 19
      let n := if x.left < burst then x.left else burst
      let total := d.rows * d.rowBytes
      let s := wrf s (Reg.MV_STATUS c) 31 24 (rdf s (Reg.MV_STATUS c) 31 24 - 1)
      let s := mvMove s c d ((total - x.left) / 8) (n / 8)
      updChan s c (fun y => { y with left := x.left - n })

/-- The requests a paced channel has counted are served, one burst each. -/
def mvServe (s : State) (c : ChanId) : State :=
  forUpTo (rdf s (Reg.MV_STATUS c) 31 24) (fun _ t => mvBurst t c) s

/-- Is the channel paced by a request line (R199)? -/
def chanPaced (s : State) (c : ChanId) : Bool :=
  match c with
  | .hub _ => rdb s (Reg.MV_CTL c) 12
  | _ => false

/-- A descriptor that passed its checks runs. -/
def mvRun (s : State) (c : ChanId) (d : Desc) : State :=
  let s := if (getChan s c).regMode then s else wrn s (Reg.MV_DESC c) d.next
  let s := updChan s c (fun x => { x with fetch := false, fin := some d, left := 0 })
  if descEmpty d then descDone s c d
  else if chanPaced s c then mvServe (updChan s c (fun x => { x with left := d.rows * d.rowBytes })) c
  else mvMove s c d 0 (d.rows * d.rowBytes / 8)

/-- The descriptor of a register-mode transfer (R192). -/
def regDesc (s : State) (c : ChanId) : Desc :=
  { src := rdf s (Reg.MV_SRC c) 47 0, dst := rdf s (Reg.MV_DST c) 47 0, rowBytes := rdf s (Reg.MV_COUNT c) 31 0,
    rows := 1, srcPitch := 0, dstPitch := 0, next := 0, fill := false, irq := false, sigEn := false, sigSem := 0 }

/-- The next descriptor is read whole, judged and run (R194); a channel with nothing to fetch does nothing. -/
def mvFetch (s : State) (c : ChanId) : State :=
  let x := getChan s c
  if ¬ (chanBusy s c ∧ x.fetch) then s
  else if x.regMode then
    let d := regDesc s c
    match lowest (descCodes s c [] d) with
    | some code => mvFault s c code
    | none => mvRun s c d
  else
    let a := rdn s (Reg.MV_DESC c) / 64 * 64
    match mvPlace s c a with
    | .bad code => mvFault s c code
    | .at p left _ =>
      if left < 64 then mvFault s c 1
      else if secForbidden s x.sec p 64 then mvFault s c 6
      else
        let ws := (List.range 8).map (fun i => getWord s (p + 8 * i))
        let s := (List.range 8).foldl (fun t i => (mvRead t c (p + 8 * i)).2) s
        if ws.any (·.p) then mvFault s c 4
        else
          let vs := ws.map (·.v)
          let d := parseDesc vs
          match lowest (descCodes s c vs d) with
          | some code => mvFault s c code
          | none => mvRun s c d

/-! ### Starting and stopping (R190, R191, R196-R201) -/

/-- The request line is held by another channel (R200). -/
def lineHeld (s : State) (line : Nat) (c : ChanId) : Bool :=
  match Tab.find s.lines line with
  | some k => k != chanKey c
  | none => false

/-- The SEC_PIN bit of the signal behind a request line (Tables 13.2, 12.8): CAPc for lines 28-35. -/
def lineSecure (s : State) (line : Nat) : Bool :=
  if 28 ≤ line ∧ line < 36 then rdb s Reg.SEC_PIN (16 + line - 28)
  else if 36 ≤ line ∧ line < 52 then rdb s Reg.SEC_PIN (40 + (line - 36) % 8)
  else false

/-- START on a channel that is neither busy nor armed. -/
def mvStartOp (s : State) (c : ChanId) (starter : Nat) : State :=
  let ctl := Reg.MV_CTL c
  let trig := match c with
    | .cluster _ _ => rdb s ctl 3
    | _ => false
  let line := rdf s ctl 18 13
  let s := updChan s c (fun _ =>
    { regMode := !rdb s ctl 2, sec := rdb s ctl 30, starter := starter, trig := trig })
  if chanPaced s c ∧ lineHeld s line c then mvFault s c 5
  else if chanPaced s c ∧ lineSecure s line ∧ rdb s ctl 30 = false then mvFault s c 6
  else
    let s := if chanPaced s c then { s with lines := Tab.set s.lines line (chanKey c) } else s
    if trig then wrf s (Reg.MV_STATUS c) 1 1 1
    else updChan (wrf s (Reg.MV_STATUS c) 0 0 1) c (fun x => { x with fetch := true })

/-- STOP: an armed channel disarms at once; a busy one stops at its next descriptor boundary (R201). -/
def mvStopOp (s : State) (c : ChanId) : State :=
  if chanArmed s c then hwSetBit (wrf s (Reg.MV_STATUS c) 1 1 0) (Reg.MV_STATUS c) (Reg.MV_EVCNT c) 3
  else if chanBusy s c then updChan s c (fun x => { x with stop := true })
  else s

/-- The processor that starts a channel, for its notices. -/
def starterOf (who : Requester) : Nat := (rimeOf who).getD 0

/-- A write of MV_CTL with START and STOP (Table 07.3). -/
def mvCtlWrite (s : State) (who : Requester) (c : ChanId) (v : Word) : State :=
  match blkOf (Reg.MV_CTL c) with
  | none => s
  | some (b, u, off) =>
    if mayWrite s who b u off then
      let idle := ¬ (chanBusy s c ∨ chanArmed s c)
      let s := regWrite s who (Reg.MV_CTL c) 32 v
      let s := if bit v 0 ∧ idle then mvStartOp s c (starterOf who) else s
      if bit v 1 then mvStopOp s c else s
    else s

/-- The granting of an armed channel's wait on its trigger semaphore (R197). -/
def mvTriggerOp (s : State) (c : ChanId) : State :=
  match c with
  | .cluster k _ =>
    let sem := SemId.cluster k (rdf s (Reg.MV_CTL c) 11 4)
    if chanArmed s c ∧ 1 ≤ semGet s sem then
      let s := semPut s sem (semGet s sem - 1)
      let s := wr s (Reg.MV_DESC c) (rd s (Reg.MV_HEAD c))
      let s := wrf (wrf s (Reg.MV_STATUS c) 1 1 0) (Reg.MV_STATUS c) 0 0 1
      updChan s c (fun x => { x with fetch := true })
    else s
  | _ => s

/-- One request on a line reaches the channel that holds it (R199, R200). -/
def mvRequestOp (s : State) (line : Nat) : State :=
  match Tab.find s.lines line with
  | none => s
  | some k =>
    let c := ChanId.hub (k - 4096)
    if chanBusy s c then
      let pend := rdf s (Reg.MV_STATUS c) 31 24
      if 255 ≤ pend then hwSetBit s (Reg.MV_STATUS c) (Reg.MV_EVCNT c) 6
      else mvBurst (wrf s (Reg.MV_STATUS c) 31 24 (pend + 1)) c
    else s

/-- The completion point of the descriptor whose writes have all been made (R203, R204). -/
def mvComplete (s : State) (c : ChanId) : State :=
  let x := getChan s c
  match x.fin with
  | some d => if chanBusy s c ∧ x.left = 0 then descDone s c d else s
  | none => s

/-- Every channel of a core stops as on ABORT (R70). -/
def stopCoreChannels (s : State) (n : Nat) : State := forUpTo 8 (fun ch t => mvStopOp t (.core n ch)) s

/-! ### The commands -/

/-- MV_START (R196): a write of MV_CTL. -/
def execMvStart (who : Requester) (ch : ChanId) (val : BitVec 32) (s : State) : Result :=
  .next (mvCtlWrite s who ch (val.zeroExtend 64))

/-- MV_STOP (R201): a write of MV_CTL.STOP by a requester that may write it. -/
def execMvStop (who : Requester) (ch : ChanId) (s : State) : Result :=
  .next (match blkOf (Reg.MV_CTL ch) with
    | some (b, u, off) => if mayWrite s who b u off then mvStopOp s ch else s
    | none => s)

/-- MV_DESCRIPTOR_FETCH (R194). -/
def execMvDescriptorFetch (ch : ChanId) (s : State) : Result := .next (mvFetch s ch)

/-- MV_TRIGGER (R197). -/
def execMvTrigger (ch : ChanId) (s : State) : Result := .next (mvTriggerOp s ch)

/-- MV_REQUEST (R199). -/
def execMvRequest (line : Nat) (s : State) : Result := .next (mvRequestOp s line)

/-- MV_CORE_DONE (R203): the writes of a core channel have left the engine. -/
def execMvCoreDone (core ch : Nat) (s : State) : Result := .next (mvComplete s (.core core ch))

/-- MV_READBACK_DONE (R204): the read-back of a cluster or hub channel returns; a core channel has none. -/
def execMvReadbackDone (ch : ChanId) (s : State) : Result :=
  .next (match ch with
    | .core _ _ => s
    | _ => mvComplete s ch)

end Sys2Proof.Machine
end

