-- ==== Sys2Proof/Machine/Scalar.lean ====
section
/-! DEFINITION. The front end: the C slot's instructions (R47, R48), what holds dispatch (R55, R60, R61, R258, R68),
kernel start and abort (R38, R70), barriers and twin checkpoints. -/

namespace Sys2Proof.Machine

/-! ### Results (R26: a result is poisoned when an operand is) -/

/-- A two-operand result. -/
def pw2 (f : Word → Word → Word) (a b : PWord) : PWord := ⟨f a.v b.v, a.p || b.p⟩

/-- The second operand of the arithmetic instructions: Sb, or imm when MOD[0] is 1. -/
def aluB (s : State) (n : Nat) (x : Insn) : PWord := if x.md = 1 then PWord.clean (sextImm x.imm) else readS s n x.b

/-- The two-operand functions of Table 02.4. -/
def aluFn (op : Nat) (a b : Word) : Word :=
  match op with
  | 0x04 => a + b
  | 0x05 => a - b
  | 0x06 => a &&& b
  | 0x07 => a ||| b
  | 0x08 => a ^^^ b
  | 0x09 => a <<< (b.toNat % 64)
  | 0x0A => a >>> (b.toNat % 64)
  | 0x0B => a.sshiftRight (b.toNat % 64)
  | 0x0C => a * b
  | 0x0D => if BitVec.slt a b then a else b
  | 0x0E => if BitVec.slt a b then b else a
  | _ => a

/-- An effective address: Aa + imm (Table 02.4). -/
def effAddr (s : State) (n : Nat) (x : Insn) : PWord := pw2 (· + ·) (readA s n x.a) (PWord.clean (sextImm x.imm))

/-! ### Draining (R53, R60, R258) -/

/-- Has every queued and issued instruction of the core completed, its movers' writes included? -/
def drained (s : State) (n : Nat) : Bool :=
  let c := getCore s n
  c.qm.isEmpty && c.qv.isEmpty && c.qw.isEmpty && c.qa.isEmpty && c.qc.isEmpty && c.wn.isNone &&
    (List.range 8).all (fun ch => !chanBusy s (.core n ch))

/-! ### Twin checkpoints (R257-R259) -/

/-- The signature: the CRC of the six lanes in order, each as eight little-endian bytes. -/
def signature (c : CoreSt) : Word :=
  (List.range 6).foldl (fun x i => crc64 x (bytesLE 8 (Tab.get 0 c.lanes i).toNat)) 0

/-- A checkpoint submitted to the cluster comparator; the lanes clear and the count of cycles restarts. -/
def submitCheckpoint (s : State) (n : Nat) (gap : Bool) : State :=
  let c := getCore s n
  let k := clusterOf n
  let s := setClu s k { getClu s k with subs := (getClu s k).subs ++ [⟨n, c.ckNum, signature c, gap⟩] }
  setCore s n { c with lanes := [], ckNum := c.ckNum + 1, gap := 0 }

/-- Is the core forming a CHECKPOINT on a twinned core ready to submit it? -/
def checkpointOp (s : State) (n : Nat) : State :=
  if twinned s n then
    if drained s n then updCore (submitCheckpoint s n false) n (fun c => { c with hold := .none })
    else updCore s n (fun c => { c with hold := .checkpoint })
  else s

/-! ### Barriers (R60, R61) -/

/-- Position of a core for barriers: S6[22:20] at its start; a core started outside any placement takes its number
in the cluster (log entry 14). -/
def corePos (s : State) (n : Nat) : Nat := (getCore s n).pos

/-- The core has drained: it records its arrival at a cluster barrier and holds until the release. A twin secondary
makes no arrival of its own (Table 09.2). -/
def barArrive (s : State) (n : Nat) (imm : BitVec 32) : State :=
  let id := imm.toNat % 16
  let mask := imm.toNat / 256 % 256
  let k := clusterOf n
  let wait (t : State) : State := updCore t n (fun c => { c with hold := .barWait id })
  if secondary s n then
    if 0 < Tab.get 0 (getCore s n).pairWaits 6 then
      updCore s n (fun c => { c with pairWaits := Tab.upd 0 c.pairWaits 6 (· - 1), hold := .none })
    else wait s
  else
    let pos := corePos s n
    let c := getClu s k
    wait (setClu s k { c with barriers := Tab.upd [] c.barriers id (fun l => l ++ [⟨n, pos, mask ||| 2 ^ pos⟩]) })

/-- BAR.CL: drains, then arrives. -/
def barClOp (s : State) (n : Nat) (imm : BitVec 32) : State :=
  if drained s n then barArrive s n imm else updCore s n (fun c => { c with hold := .barCl imm })

/-- Has every position named in the union of the arrived masks arrived (R61)? -/
def barComplete (l : List Arrival) : Bool :=
  let union := l.foldl (fun m a => m ||| a.mask) 0
  !l.isEmpty && (List.range 8).all (fun i => !(union.testBit i) || l.any (fun a => a.pos == i))

/-- All arrived cores, and the secondaries of twinned ones, resume. -/
def barRelease (s : State) (k id : Nat) : State :=
  let l := Tab.get [] (getClu s k).barriers id
  if barComplete l then
    let s := setClu s k { getClu s k with barriers := Tab.set (getClu s k).barriers id [] }
    l.foldl (fun t a =>
      let t := updCore t a.core (fun c => { c with hold := .none })
      if twinned t a.core ∧ a.core % 2 = 0 then
        if (getCore t (a.core + 1)).hold = .barWait id then updCore t (a.core + 1) (fun c => { c with hold := .none })
        else updCore t (a.core + 1) (fun c => { c with pairWaits := Tab.upd 0 c.pairWaits 6 (· + 1) })
      else t) s
  else s

/-- An arrival withdrawn (R70). -/
def withdraw (s : State) (n : Nat) : State :=
  let k := clusterOf n
  let c := getClu s k
  setClu s k { c with barriers := c.barriers.map (fun e => (e.1, e.2.filter (fun a => a.core != n))) }

/-! ### Semaphore waits of the front end (R55) -/

/-- SWAIT or SWAIT.G in the C slot: granted at once, or it holds dispatch of the whole core. -/
def swaitFront (s : State) (n : Nat) (imm : BitVec 32) (keep : Bool) : State :=
  match semWait s n .front (semOf n imm) (imm.toNat / 65536) keep with
  | some t => updCore t n (fun c => { c with hold := .none })
  | none => updCore s n (fun c => { c with hold := .sem imm keep })

/-! ### Branches and loops (R48) -/

/-- A bundle index `k` bundles from `pc`, within the instruction store (R40). -/
def pcPlus (pc : Nat) (k : Int) : Nat := (((pc : Int) + k) % 2048).toNat

/-- The index after the bundle at `pc`, taking the back-edge of every loop whose body ends there. -/
def nextPc (pc : Nat) : List LoopFrame → Nat × List LoopFrame
  | [] => (pcPlus pc 1, [])
  | f :: fs =>
    if f.last = pc then
      if 0 < f.left then (f.first, { f with left := f.left - 1 } :: fs) else nextPc pc fs
    else (pcPlus pc 1, f :: fs)

/-- Where a control instruction of the bundle at `pc` sends the front end, if anywhere but to the next bundle. -/
def branchTo (s : State) (n pc : Nat) (x : Insn) : Option Nat :=
  let off := x.imm.toInt
  match x.op with
  | 0x18 => some (pcPlus pc off)
  | 0x19 => if (readS s n x.a).p = false ∧ (readS s n x.a).v ≠ 0 then some (pcPlus pc off) else none
  | 0x1A => if (readS s n x.a).p = false ∧ (readS s n x.a).v = 0 then some (pcPlus pc off) else none
  | 0x1B =>
    if (readS s n x.a).p then none
    else if fld (readS s n x.a).v 31 0 = 0 then some (pcPlus pc (1 + off)) else some (pcPlus pc 1)
  | _ => none

def setPc (s : State) (n pc : Nat) : State := wrn s (Reg.CORE_PC n) (pc % 2048)
def getPc (s : State) (n : Nat) : Nat := rdf s (Reg.CORE_PC n) 10 0

/-- A branch or loop at the bundle CORE_PC names: a poisoned condition or count takes no effect and raises UC. -/
def branchOp (s : State) (n : Nat) (x : Insn) : State :=
  let pc := getPc s n
  let r := readS s n x.a
  if x.op ≠ 0x18 ∧ r.p then poisonConsumed s n pc
  else
    let s' := match branchTo s n pc x with
      | some t => setPc s n t
      | none => s
    if x.op = 0x1B ∧ fld r.v 31 0 ≠ 0 then
      updCore s' n (fun c => { c with
        loops := ⟨pcPlus pc 1, pcPlus pc x.imm.toInt, fld r.v 31 0 - 1⟩ :: c.loops })
    else s'

/-! ### The C slot (Table 02.4) -/

/-- An instruction of the C slot with a defined encoding. -/
def opC (s : State) (n : Nat) (x : Insn) : State :=
  match x.op with
  | 0x01 => writeS s n x.d (PWord.clean (sextImm x.imm))
  | 0x02 =>
    let r := readS s n x.d
    writeS s n x.d ⟨setFld r.v 63 32 x.imm.toNat, r.p⟩
  | 0x0F => writeS s n x.d (pw2 (fun a b => if scalarCond x.md a b then 1 else 0) (readS s n x.a) (readS s n x.b))
  | 0x10 => writeA s n x.d (readS s n x.a)
  | 0x11 => writeS s n x.d (readA s n x.a)
  | 0x12 => writeA s n x.d (pw2 (· + ·) (readA s n x.a) (aluB s n x))
  | 0x14 =>
    let e := effAddr s n x
    if e.p then poisonConsumed s n 0 else writeS s n x.d (csRead s n e.v.toNat)
  | 0x15 =>
    let e := effAddr s n x
    if e.p then poisonConsumed s n 0 else csWrite s n .front e.v.toNat (readS s n x.b)
  | 0x18 => branchOp s n x
  | 0x19 => branchOp s n x
  | 0x1A => branchOp s n x
  | 0x1B => branchOp s n x
  | 0x1C => writeS s n x.d (PWord.clean (rd s (Reg.CORE_CYCLES n)))
  | 0x1D =>
    let r := pairValue s n (PWord.clean (now s))
    writeS r.2 n x.d r.1
  | 0x20 =>
    let r := readS s n x.a
    if r.p then poisonConsumed s n 0 else ssetOp s n (semOf n x.imm) (fld r.v 15 0)
  | 0x21 =>
    let m := semOf n x.imm
    let v := PWord.clean (BitVec.ofNat 64 (semGet s m))
    if isCluSem m then
      let r := pairValue s n v
      writeS r.2 n x.d r.1
    else writeS s n x.d v
  | 0x22 => swaitFront s n x.imm (x.md == 1)
  | 0x23 => ssigOp s n .front (semOf n x.imm) (x.imm.toNat / 65536)
  | 0x24 => if drained s n then s else updCore s n (fun c => { c with hold := .barCore })
  | 0x25 => barClOp s n x.imm
  | 0x28 => checkpointOp s n
  | 0x2F => updCore s n (fun c => { c with hold := .halt })
  | 0 => s
  | _ => writeS s n x.d (pw2 (aluFn x.op) (readS s n x.a) (aluB s n x))

/-- A C-slot instruction: an undefined encoding executes as NOP and sets BADOP (R66). -/
def runC (s : State) (n : Nat) (x : Insn) : State :=
  if slotLegal .c x (getCore s n).formats then opC s n x else badop s n

/-! ### Start, abort, end (R38, R65, R68, R70) -/

/-- The state of a core at kernel start: every register zero, S1-S8 from CORE_ARG, the MXE mode at its start
value. What the core keeps is its placement. -/
def startState (s : State) (n : Nat) : CoreSt :=
  let c := getCore s n
  { s := forUpTo 8 (fun i t => Tab.set t (i + 1) (PWord.clean (rd s (Reg.CORE_ARG n i)))) ([] : Tab PWord),
    formats := c.formats, pos := c.pos, job := c.job, label := c.label, inService := c.inService }

/-- A write of CORE_CTL.START (R38, Table 02.11): ignored while RUNNING is 1. A twin secondary's submissions of an
earlier kernel are gone with it. -/
def coreStart (s : State) (n : Nat) : State :=
  if running s n then s
  else
    let s := setCore s n (startState s n)
    let s := wr s (Reg.CORE_CYCLES n) 0
    let s := setPc s n (rdf s (Reg.CORE_ENTRY n) 10 0)
    wrb s (Reg.CORE_STATUS n) 0 true

/-- What ends with a kernel that does not halt by itself: dispatch stops, queues and waits are dropped, its barrier
arrival is withdrawn, its channels stop at their next boundary, its pending submissions are discarded (R70, R259). -/
def coreStop (s : State) (n : Nat) : State :=
  let s := updCore s n (fun c => { c with
    qm := [], qv := [], qw := [], qa := [], qc := [], hold := .none, wn := none, loops := [] })
  let s := stopCoreChannels (withdraw s n) n
  let k := clusterOf n
  let s := setClu s k { getClu s k with subs := (getClu s k).subs.filter (fun x => x.core != n) }
  wrb s (Reg.CORE_STATUS n) 0 false

/-- ABORT (R70): ignored while RUNNING is 0. -/
def coreAbort (s : State) (n : Nat) : State :=
  if running s n then hwSetBit (coreStop s n) (Reg.CORE_STATUS n) (Reg.CORE_EVCNT n) 5 else s

/-- The drain after HALT has ended (R68): on a twinned core the final checkpoint is submitted, and the kernel ends on
the core once the comparator has agreed it (R258). -/
def haltDrained (s : State) (n : Nat) : State :=
  let c := getCore s n
  if c.hold = .halt ∧ drained s n ∧ running s n then
    if twinned s n ∧ ¬ c.ckFinal then updCore (submitCheckpoint s n false) n (fun c => { c with ckFinal := true })
    else if twinned s n ∧ ¬ c.ckAgreed then s
    else
      let s := updCore s n (fun c => { c with hold := .none, haltAt := some (nowN s) })
      let s := hwSetBit (wrb s (Reg.CORE_STATUS n) 0 false) (Reg.CORE_STATUS n) (Reg.CORE_EVCNT n) 1
      notify s "die controller" "HALTED" n
  else s

/-- The budget is reached (R65): as ABORT, with OVERRUN in its place. -/
def budgetExpire (s : State) (n : Nat) : State :=
  if running s n ∧ rd s (Reg.CORE_BUDGET n) ≠ 0 ∧ rdn s (Reg.CORE_BUDGET n) ≤ rdn s (Reg.CORE_CYCLES n) then
    notify (hwSetBit (coreStop s n) (Reg.CORE_STATUS n) (Reg.CORE_EVCNT n) 2) "die controller" "OVERRUN" n
  else s

/-- A forced GAP checkpoint (R258): 65,537 cycles without one on a twinned running core. -/
def gapCheckpoint (s : State) (n : Nat) : State :=
  if twinned s n ∧ running s n ∧ 65537 ≤ (getCore s n).gap then submitCheckpoint s n true else s

end Sys2Proof.Machine
end

