-- ==== Sys2Proof/Machine/Vector.lean ====
section
/-! DEFINITION. The vector engine (R51, R97-R100): lanes of a 2,048-bit register, lane arithmetic rounded once,
reductions, conversions, gathers, and the poison each result word takes (R26). -/

namespace Sys2Proof.Machine

/-! ### Lanes -/

/-- The lanes of a register. -/
def lanesOf (l : Lane) (v : VReg) : List Nat := chunksOf l.width l.count v.v.toNat

/-- Lanes packed into a register value. -/
def packLanes (w : Nat) (xs : List Nat) : BitVec 2048 :=
  BitVec.ofNat 2048 (xs.foldr (fun x acc => x % 2 ^ w + 2 ^ w * acc) 0)

/-- The 64-bit word lane `i` of width `w` lies in. -/
def laneWord (w i : Nat) : Nat := i * w / 64

/-- Is the word of lane `i` poisoned? -/
def lanePoison (v : VReg) (w i : Nat) : Bool := v.p.getLsbD (laneWord w i)

/-- Poison bits from the lanes that carry poison. -/
def poisonBits (w : Nat) (ps : List Bool) : BitVec 32 :=
  (List.range ps.length).foldl (fun p i =>
    if ps.getD i false then p ||| BitVec.ofNat 32 (2 ^ laneWord w i) else p) 0

/-- A lane-wise function of one register. -/
def map1 (l : Lane) (f : Nat → Nat) (a : VReg) : VReg := ⟨packLanes l.width ((lanesOf l a).map f), a.p⟩

/-- A lane-wise function of two registers. -/
def map2 (l : Lane) (f : Nat → Nat → Nat) (a b : VReg) : VReg :=
  ⟨packLanes l.width (List.zipWith f (lanesOf l a) (lanesOf l b)), a.p ||| b.p⟩

/-! ### Lane arithmetic (R97) -/

/-- A two-operand lane result: 0x64 VADD, 0x65 VSUB, 0x66 VMUL, 0x67 VMIN, 0x68 VMAX. -/
def laneArith (l : Lane) (op a b : Nat) : Nat :=
  match l with
  | .flt f =>
    let x := f.decode a
    let y := f.decode b
    f.encode .rne (match op with
      | 0x64 => x.add y
      | 0x65 => x.add y.neg
      | 0x66 => x.mul y
      | 0x67 => x.min y
      | _ => x.max y)
  | .int w sg =>
    let x := laneInt w sg a
    let y := laneInt w sg b
    ofSigned w (match op with
      | 0x64 => x + y
      | 0x65 => x - y
      | 0x66 => x * y
      | 0x67 => if x < y then x else y
      | _ => if x < y then y else x)

/-- VFMA on one lane: one rounding. -/
def laneFma (l : Lane) (a b c : Nat) : Nat :=
  match l with
  | .flt f => f.encode .rne (((f.decode a).mul (f.decode b)).add (f.decode c))
  | .int w sg => ofSigned w (laneInt w sg a * laneInt w sg b + laneInt w sg c)

/-- VABS and VNEG change only a float's sign bit (R77); integers wrap. -/
def laneAbs (l : Lane) (x : Nat) : Nat :=
  match l with
  | .flt f => x % 2 ^ (f.width - 1)
  | .int w sg => ofSigned w (laneInt w sg x).natAbs

def laneNeg (l : Lane) (x : Nat) : Nat :=
  match l with
  | .flt f => (x + 2 ^ (f.width - 1)) % 2 ^ f.width
  | .int w sg => ofSigned w (-(laneInt w sg x))

/-- The lane combination of a reduction stage: 0 sum, 1 max, 2 min. -/
def redOp (k : Nat) : Nat :=
  match k with
  | 0 => 0x64
  | 1 => 0x68
  | _ => 0x67

/-- One stage of VRED: lane i combined with lane i + half. -/
def redStage (l : Lane) (k : Nat) (xs : List Nat) : List Nat :=
  List.zipWith (laneArith l (redOp k)) (xs.take (xs.length / 2)) (xs.drop (xs.length / 2))

/-- VRED over every stage (R98). -/
def redLanes (l : Lane) (k : Nat) (xs : List Nat) : Nat :=
  ((List.range (Nat.log2 xs.length)).foldl (fun ys _ => redStage l k ys) xs).getD 0 0

/-! ### VCVT (R99) -/

/-- One lane converted from a type to another under IMM[5:4]. -/
def cvtLane (src dst : Lane) (r x : Nat) : Nat :=
  match src, dst with
  | .flt f, .flt g => g.encode (rndOf r) (f.decode x)
  | .int w sg, .flt g => g.encode (rndOf r) (.ofInt (laneInt w sg x))
  | .flt f, .int w sg => toIntOut w sg r 0 (f.decode x)
  | .int w sg, .int w' sg' => if r = 3 then ofSigned w' (laneInt w sg x) else satInt w' sg' (laneInt w sg x)

/-- VCVT with its lane mapping: the destination keeps its other lanes where it has more. -/
def vcvt (src dst : Lane) (r p : Nat) (old a : VReg) : VReg :=
  let xs := lanesOf src a
  let ps := (List.range src.count).map (lanePoison a src.width)
  let ns := src.count
  let nd := dst.count
  if ns < nd then
    let olds := lanesOf dst old
    let keep (i : Nat) : Bool := decide (i < p * ns) || decide (p * ns + ns ≤ i)
    ⟨packLanes dst.width ((List.range nd).map (fun i =>
        if keep i then olds.getD i 0 else cvtLane src dst r (xs.getD (i - p * ns) 0))),
      poisonBits dst.width ((List.range nd).map (fun i =>
        if keep i then lanePoison old dst.width i else ps.getD (i - p * ns) false))⟩
  else
    ⟨packLanes dst.width ((List.range nd).map (fun i => cvtLane src dst r (xs.getD (p * nd + i) 0))),
      poisonBits dst.width ((List.range nd).map (fun i => ps.getD (p * nd + i) false))⟩

/-! ### VROPE -/

/-- Each element pair (x0, x1) of Va turned by the pair (c, s) of Vb: (x0 c - x1 s, x0 s + x1 c), each result rounded
once. -/
def ropeLane (l : Lane) (x0 x1 c sn : Nat) (second : Bool) : Nat :=
  match l with
  | .flt f =>
    let d := f.decode
    f.encode .rne (if second then ((d x0).mul (d sn)).add ((d x1).mul (d c))
      else ((d x0).mul (d c)).add ((d x1).mul (d sn)).neg)
  | .int w sg =>
    let z := laneInt w sg
    ofSigned w (if second then z x0 * z sn + z x1 * z c else z x0 * z c - z x1 * z sn)

def vrope (l : Lane) (a b : VReg) : VReg :=
  let xs := lanesOf l a
  let ys := lanesOf l b
  ⟨packLanes l.width ((List.range l.count).map (fun i =>
      let k := i / 2 * 2
      ropeLane l (xs.getD k 0) (xs.getD (k + 1) 0) (ys.getD k 0) (ys.getD (k + 1) 0) (i % 2 == 1))),
    a.p ||| b.p⟩

/-! ### Selection and shuffles -/

/-- VSEL: the selected lane, with its poison and the condition's. -/
def vsel (l : Lane) (a b c : VReg) : VReg :=
  let xs := lanesOf l a
  let ys := lanesOf l b
  let cs := lanesOf l c
  let w := l.width
  ⟨packLanes w ((List.range l.count).map (fun i => if cs.getD i 0 ≠ 0 then xs.getD i 0 else ys.getD i 0)),
    poisonBits w ((List.range l.count).map (fun i =>
      lanePoison c w i || (if cs.getD i 0 ≠ 0 then lanePoison a w i else lanePoison b w i)))⟩

/-- VSHUF: lane i takes lane (Vb lane i modulo the lane count) of Va. -/
def vshuf (l : Lane) (a b : VReg) : VReg :=
  let xs := lanesOf l a
  let ix := (lanesOf l b).map (· % l.count)
  let w := l.width
  ⟨packLanes w (ix.map (fun k => xs.getD k 0)),
    poisonBits w ((List.range l.count).map (fun i => lanePoison b w i || lanePoison a w (ix.getD i 0)))⟩

/-! ### Register words -/

/-- A register from 32 words. -/
def vOfWords (ws : List PWord) : VReg :=
  ⟨packLanes 64 (ws.map (fun w => w.v.toNat)), poisonBits 64 (ws.map (·.p))⟩

/-- The 32 words of a register. -/
def vWords (v : VReg) : List PWord :=
  (List.range 32).map (fun i => ⟨BitVec.ofNat 64 (v.v.toNat / 2 ^ (64 * i)), v.p.getLsbD i⟩)

/-! ### The instructions (Table 02.6) -/

/-- VLD: four lines from an aligned address. -/
def vldOp (s : State) (n d : Nat) (imm : BitVec 32) (a : PWord) : State :=
  if a.p then poisonConsumed s n 0
  else writeV s n d (vOfWords (csReadN s n ((a.v + sextImm imm).toNat % 0x100000 / 64 * 64) 32))

def vstOp (s : State) (n b : Nat) (imm : BitVec 32) (a : PWord) : State :=
  if a.p then poisonConsumed s n 0
  else csWriteN s n .vxe ((a.v + sextImm imm).toNat % 0x100000 / 64 * 64) (vWords (readV s n b))

/-- VLDG: 64 elements at Aa plus the lane's offset. -/
def vldgOp (s : State) (n d b : Nat) (a : PWord) : State :=
  let vb := readV s n b
  if a.p ∨ vb.p ≠ 0 then poisonConsumed s n 0
  else
    let es := (lanesOf (.int 32 false) vb).map (fun o => csRead4 s n ((a.v.toNat + o) % 0x100000))
    writeV s n d ⟨packLanes 32 (es.map (·.1)), poisonBits 32 (es.map (·.2))⟩

/-- VBCAST: the low element of Sa in every lane. -/
def vbcastOp (s : State) (n d md : Nat) (a : PWord) : State :=
  let l := laneOf md
  writeV s n d ⟨packLanes l.width (List.replicate l.count (a.v.toNat % 2 ^ l.width)),
    if a.p then BitVec.allOnes 32 else 0⟩

/-- VTLD: rows 2p and 2p + 1 of a tile. -/
def vtldOp (s : State) (n d t : Nat) (imm : BitVec 32) : State :=
  let x := readT s n t
  let p := imm.toNat % 32
  writeV s n d ⟨packLanes 32 ((List.range 64).map (fun i => (x.cells.getD (64 * p + i) 0).toNat)),
    (if x.p.getLsbD (2 * p) then 0xFFFF else 0) ||| (if x.p.getLsbD (2 * p + 1) then 0xFFFF0000 else 0)⟩

/-- VTST: rows 2p and 2p + 1 of a tile written. -/
def vtstOp (s : State) (n t a : Nat) (imm : BitVec 32) : State :=
  let x := readT s n t
  let v := readV s n a
  let p := imm.toNat % 32
  let cells := (List.range 2048).map (fun i => x.cells.getD i 0)
  let new := (lanesOf (.int 32 false) v).map (BitVec.ofNat 32)
  let row (i : Nat) (on : Bool) (q : BitVec 64) : BitVec 64 :=
    if on then q ||| BitVec.ofNat 64 (2 ^ i) else q &&& ~~~ BitVec.ofNat 64 (2 ^ i)
  writeT s n t
    { cells := cells.take (64 * p) ++ new ++ cells.drop (64 * p + 64),
      p := row (2 * p) (v.p &&& 0xFFFF != 0) (row (2 * p + 1) (v.p &&& 0xFFFF0000 != 0) x.p) }

/-- VMOVS: a lane into Sd, signed integer lanes sign-extended. -/
def vmovsOp (s : State) (n d a md : Nat) (imm : BitVec 32) : State :=
  let l := laneOf md
  let v := readV s n a
  let i := imm.toNat % 256 % l.count
  let x := (lanesOf l v).getD i 0
  writeS s n d ⟨match l with
    | .int w true => BitVec.ofInt 64 (toSigned w x)
    | _ => BitVec.ofNat 64 x, lanePoison v l.width i⟩

/-- The other lane instructions by opcode: the new value of Vd. -/
def vecResult (op : Nat) (l : Lane) (imm : BitVec 32) (old a b c : VReg) : VReg :=
  let i := imm.toNat
  match op with
  | 0x69 =>
    ⟨packLanes l.width ((List.range l.count).map (fun k =>
        laneFma l ((lanesOf l a).getD k 0) ((lanesOf l b).getD k 0) ((lanesOf l c).getD k 0))),
      a.p ||| b.p ||| c.p⟩
  | 0x6A => map1 l (laneAbs l) a
  | 0x6B => map1 l (laneNeg l) a
  | 0x6C => map2 l (fun x y => if laneCond l (i % 8) x y then 2 ^ l.width - 1 else 0) a b
  | 0x6D => vsel l a b c
  | 0x6E => vshuf l a b
  | 0x6F => ⟨BitVec.ofNat 2048 (redLanes l i (lanesOf l a)), if a.p = 0 then 0 else 1⟩
  | 0x74 => vcvt l (laneOf (i % 16)) (i / 16 % 4) (i / 64 % 4) old a
  | 0x75 => vrope l a b
  | _ =>
    if 0x70 ≤ op ∧ op ≤ 0x73 then
      match l with
      | .flt f => map1 l (transcend f (op - 0x70)) a
      | .int _ _ => a
    else map2 l (laneArith l op) a b

/-- A lane instruction of the V slot. -/
def vecOp (s : State) (n : Nat) (x : Insn) : State :=
  writeV s n x.d
    (vecResult x.op (laneOf x.md) x.imm (readV s n x.d) (readV s n x.a) (readV s n x.b) (readV s n x.c))

end Sys2Proof.Machine
end

