-- ==== Sys2Proof/Machine/Front.lean ====
section
/-! DEFINITION. Dispatch and issue (R41-R46, R66): bundles, engine queues, captured operands, and one definition for
each instruction of Tables 02.4-02.7. An instruction command runs its instruction on the core named, outside the
bundle stream: it neither moves the program counter, except by a branch, nor waits for the queues before it. -/

namespace Sys2Proof.Machine

/-! ### Engines and queues (R44) -/

/-- The engine's number: its error block (Table 01.1) and its queue. -/
def engNo : EUnit → Nat
  | .front => 5
  | .mxe => 0
  | .vxe => 1
  | .wne => 2
  | .ate => 3
  | .cdm => 4

/-- The slot an engine's instructions come from. -/
def engSlot : EUnit → SlotKind
  | .front => .c
  | .mxe => .m
  | .vxe => .v
  | _ => .x

def queueOf (c : CoreSt) (e : EUnit) : List QEntry :=
  match e with
  | .front => []
  | .mxe => c.qm
  | .vxe => c.qv
  | .wne => c.qw
  | .ate => c.qa
  | .cdm => c.qc

def setQueue (c : CoreSt) (e : EUnit) (q : List QEntry) : CoreSt :=
  match e with
  | .front => c
  | .mxe => { c with qm := q }
  | .vxe => { c with qv := q }
  | .wne => { c with qw := q }
  | .ate => { c with qa := q }
  | .cdm => { c with qc := q }

/-- The engine an X-slot instruction goes to, if its encoding names one (R44, Table 02.3). -/
def xEngine (x : Insn) : Option EUnit :=
  if x.op = 0x22 ∨ x.op = 0x23 then
    (match x.md % 4 with
      | 0 => some .cdm
      | 1 => some .wne
      | 2 => some .ate
      | _ => none)
  else if 0x80 ≤ x.op ∧ x.op < 0xA0 then some .cdm
  else if 0xA0 ≤ x.op ∧ x.op < 0xC0 then some .wne
  else if 0xC0 ≤ x.op ∧ x.op < 0xE0 then some .ate
  else none

/-- The engine a slot's instruction goes to; a NOP goes to none. -/
def slotEngine (k : SlotKind) (x : Insn) : Option EUnit :=
  if x.op = 0 then none
  else match k with
    | .c => none
    | .m => some .mxe
    | .v => some .vxe
    | .x => xEngine x

/-! ### Captured operands (R42) -/

/-- An S or A operand as it stands; other fields capture nothing. -/
def capField (s : State) (n : Nat) (r : RFile) (i : Nat) : PWord :=
  match r with
  | .s => readS s n i
  | .a => readA s n i
  | _ => ⟨0, false⟩

/-- The queue entry of a slot's instruction: MOUT captures its address Ad in the first place. -/
def capture (s : State) (n : Nat) (k : SlotKind) (x : Insn) : QEntry :=
  match k.rows.find? (fun r => r.op == x.op) with
  | none => ⟨encodeSlot x, ⟨0, false⟩, ⟨0, false⟩, ⟨0, false⟩, (getCore s n).bundles⟩
  | some r =>
    if x.op = 0x45 ∧ k = .m then ⟨encodeSlot x, capField s n r.d x.d, ⟨0, false⟩, ⟨0, false⟩, (getCore s n).bundles⟩
    else ⟨encodeSlot x, capField s n r.a x.a, capField s n r.b x.b, capField s n r.c x.c, (getCore s n).bundles⟩

/-! ### Engines at work (R45, R52, R53, R55) -/

/-- An MXE instruction (Table 02.5). -/
def mxeOp (s : State) (n : Nat) (x : Insn) (q : QEntry) : State :=
  match x.op with
  | 0x40 => mcfgOp s n q.a
  | 0x41 => mscaleOp s n q.a q.b
  | 0x42 => mzeroOp s n x.d
  | 0x43 => mmacOp s n x.d q.a q.b q.c
  | 0x44 => mldOp s n x.d q.a
  | _ => moutOp s n x.c x.md x.imm q.a

/-- A VXE instruction (Table 02.6). -/
def vxeOp (s : State) (n : Nat) (x : Insn) (q : QEntry) : State :=
  match x.op with
  | 0x60 => vldOp s n x.d x.imm q.a
  | 0x61 => vstOp s n x.b x.imm q.a
  | 0x62 => vldgOp s n x.d x.b q.a
  | 0x63 => vbcastOp s n x.d x.md q.a
  | 0x76 => vtldOp s n x.d x.c x.imm
  | 0x77 => vtstOp s n x.c x.a x.imm
  | 0x78 => vmovsOp s n x.d x.a x.md x.imm
  | _ => vecOp s n x

/-- The mark of a channel that DMV.START started. -/
def cdmStarter : Nat := 255

/-- DMV.START (R191) on its captured address: none while the channel is busy. -/
def dmvStartOp (s : State) (n ch : Nat) (a : PWord) : Option State :=
  let c := ChanId.core n ch
  if chanBusy s c then none
  else if a.p then some (poisonConsumed s n 0)
  else
    let s := wrn s (Reg.MV_DESC c) (0xFC * 2 ^ 40 + a.v.toNat % 0x100000)
    let s := wrf (wrf s (Reg.MV_CTL c) 30 30 0) (Reg.MV_CTL c) 2 2 1
    some (mvStartOp s c cdmStarter)

/-- Has every chain the core's own instructions started left the engine (R53, R203)? -/
def cdmDone (s : State) (n : Nat) : Bool :=
  (List.range 8).all (fun ch =>
    !(chanBusy s (.core n ch) && (getChan s (.core n ch)).starter == cdmStarter))

/-- A CDM instruction; none while it waits at the head of its queue (R52). SYNC.MEM finds every earlier write
performed: a channel moves its words in the step that fetches their descriptor. -/
def cdmOp (s : State) (n : Nat) (x : Insn) (q : QEntry) : Option State :=
  match x.op with
  | 0x80 => dmvStartOp s n x.c q.a
  | 0x81 => if chanBusy s (.core n x.c) then none else some s
  | 0x82 => some (mvStopOp s (.core n x.c))
  | _ => some s

/-- Is a semaphore instruction of an engine SWAIT.G (R40)? -/
def keepBit (e : EUnit) (md : Nat) : Bool :=
  match e with
  | .mxe => md == 1
  | .vxe => md == 1
  | .front => md == 1
  | _ => decide (4 ≤ md)

/-- One instruction of an engine on its captured operands: the state after it, or none while it has to wait at the
head of its queue. -/
def engInsn (s : State) (n : Nat) (e : EUnit) (x : Insn) (q : QEntry) : Option State :=
  if slotLegal (engSlot e) x (getCore s n).formats then
    if x.op = 0x22 then semWait s n e (semOf n x.imm) (x.imm.toNat / 65536) (keepBit e x.md)
    else if x.op = 0x23 then
      if e = .cdm ∧ cdmDone s n = false then none
      else some (ssigOp s n e (semOf n x.imm) (x.imm.toNat / 65536))
    else match e with
      | .front => some s
      | .mxe => some (mxeOp s n x q)
      | .vxe => some (vxeOp s n x q)
      | .wne => some (wnRunOp s n q.a)
      | .ate => some (if x.op = 0xC0 then atRunOp s n q.a else atMergeOp s n q.a)
      | .cdm => cdmOp s n x q
  else some (badop s n)

/-- A queue entry runs. -/
def engRun (s : State) (n : Nat) (e : EUnit) (q : QEntry) : Option State := engInsn s n e (decodeSlot q.slot) q

/-- The instruction at the head of an engine's queue runs, or stays there. -/
def engHead (s : State) (n : Nat) (e : EUnit) : State :=
  match queueOf (getCore s n) e with
  | [] => s
  | q :: rest =>
    match engRun (updCore s n (fun c => setQueue c e rest)) n e q with
    | some t => t
    | none => s

/-- May the engine issue: the kernel runs, the core has not stopped, its clock runs, and no window job is in progress
on the WNE? -/
def mayIssue (s : State) (n : Nat) (e : EUnit) : Bool :=
  running s n && !(getCore s n).stopped && !cclkGated s (dieOfCore n) &&
    !(decide (e = .wne) && (getCore s n).wn.isSome)

/-- An engine's fault at issue (Tables 01.9, 02.9): the instruction does not take effect. -/
def engFaultOp (s : State) (n : Nat) (e : EUnit) (src : Nat) (fatal : Bool) : State :=
  detect s .engine (n * 5 + engNo e) (if fatal then .fe else .uc) src 0

/-- ENGINE_ISSUE on a compute core (R45, R53). -/
def engineIssue (core : Nat) (eng : EUnit) (flt : EngFault) (s : State) : State :=
  if mayIssue s core eng ∧ ¬ (queueOf (getCore s core) eng).isEmpty ∧ eng ≠ .front then
    match flt with
    | .none => engHead s core eng
    | .fault src fatal => engFaultOp s core eng src fatal
  else s

/-! ### Dispatch (R41, R42, R48) -/

/-- What holds dispatch is looked at again: a barrier, a checkpoint or a drain may have ended; the waits of a
semaphore and of a cluster barrier end by their own commands. -/
def holdAgain (s : State) (n : Nat) : State :=
  match (getCore s n).hold with
  | .barCore => if drained s n then updCore s n (fun c => { c with hold := .none }) else s
  | .barCl imm => barClOp s n imm
  | .checkpoint => checkpointOp s n
  | _ => s

/-- The four slot words of the bundle at index `pc`. -/
def fetchBundle (s : State) (n pc : Nat) : List PWord := getWords s (instrStoreBase n + pc * 32) 4

/-- A bundle's queued slots: engine and entry, NOPs left out. A render core's X slot goes to its render unit, whose
queue stands in the CDM's place (R377). -/
def placed (s : State) (n : Nat) (ws : List PWord) : List (Option EUnit × QEntry) :=
  ([(SlotKind.m, 1), (SlotKind.v, 2), (SlotKind.x, 3)] : List (SlotKind × Nat)).filterMap (fun (k, i) =>
    let x := decodeSlot (ws.getD i ⟨0, false⟩).v
    if x.op = 0 then none else some (if k = .x ∧ 128 ≤ n then some .cdm else slotEngine k x, capture s n k x))

/-- Does every target queue have a free entry? No two slots of a bundle target one engine. -/
def roomFor (s : State) (n : Nat) (ps : List (Option EUnit × QEntry)) : Bool :=
  ps.all (fun p => match p.1 with
    | some e => decide ((queueOf (getCore s n) e).length < 16)
    | none => true)

/-- The entries placed in their queues; an X slot whose encoding names no engine executes as NOP with BADOP. -/
def placeAll (s : State) (n : Nat) (ps : List (Option EUnit × QEntry)) : State :=
  ps.foldl (fun t p => match p.1 with
    | some e => updCore t n (fun c => setQueue c e (queueOf c e ++ [p.2]))
    | none => badop t n) s

/-- The bundle at CORE_PC dispatched: operands captured, the C slot executed, the other slots queued, the program
counter moved on. BAR.CORE, BAR.CL and CHECKPOINT drain the bundle's own other slots too. -/
def dispatchBundle (s : State) (n : Nat) : State :=
  let pc := getPc s n
  let ws := fetchBundle s n pc
  if ws.any (·.p) then detect s .core n .uc 0x22 (instrStoreBase n + pc * 32)
  else
    let x := decodeSlot (ws.getD 0 ⟨0, false⟩).v
    let ps := placed s n ws
    if roomFor s n ps then
      let legal := slotLegal .c x (getCore s n).formats
      let target := if legal then branchTo s n pc x else none
      let step (t : State) : State :=
        match target with
        | some p => setPc t n p
        | none =>
          let r := nextPc pc (getCore t n).loops
          setPc (updCore t n (fun c => { c with loops := r.2 })) n r.1
      let s := updCore s n (fun c => { c with bundles := c.bundles + 1 })
      if x.op = 0x24 ∨ x.op = 0x25 ∨ x.op = 0x28 then runC (step (placeAll s n ps)) n x
      else
        let t := runC s n x
        if (getCore t n).stopped then t
        else step (placeAll t n ps)
    else s

/-- A core UC met at dispatch (Table 02.9), which stops issue. -/
def dispFaultOp (s : State) (n : Nat) (f : DispFault) : State :=
  match f with
  | .none => s
  | .regParity => detect s .core n .uc 0x25 0
  | .istore => detect s .core n .uc 0x22 (instrStoreBase n + getPc s n * 32)
  | .semParity _ => detect s .core n .uc 0x23 0

/-- May the front end dispatch? -/
def mayDispatch (s : State) (n : Nat) : Bool :=
  running s n && !(getCore s n).stopped && !cclkGated s (dieOfCore n)

/-- BUNDLE_DISPATCH (R41, R42, R66). -/
def bundleDispatch (core : Nat) (flt : DispFault) (s : State) : State :=
  if mayDispatch s core then
    let t := holdAgain s core
    if (getCore t core).hold = .none then
      (match flt with
        | .none => dispatchBundle t core
        | f => dispFaultOp t core f)
    else t
  else s

/-! ### Semaphores and barriers -/

/-- SEMAPHORE_WRITE (R59): firmware writes a core semaphore while no kernel occupies the core, and a cluster
semaphore while no running kernel there names it. -/
def semWriteOk (s : State) (who : Requester) (sem : SemId) : Bool :=
  match sem with
  | .core n i => mayWrite s who .core n (0x400 + i * 8) && !running s n
  | .cluster c i => mayWrite s who .cluster c (0x1000 + i * 8) &&
      (List.range 8).all (fun k => !running s (c * 8 + k) ||
        (match (getCore s (c * 8 + k)).job with
          | some j => s.rime.jobs.all (fun b => b.serial != j ||
              s.rime.images.all (fun im => im.id != b.run || !im.sems.contains i))
          | none => true))

def execSemaphoreWrite (who : Requester) (sem : SemId) (val : BitVec 16) (s : State) : Result :=
  .next (if semWriteOk s who sem then semPut s sem val.toNat else s)

/-- SEMAPHORE_GRANT (R55, R57): the wait of one unit of a core is looked at again. -/
def execSemaphoreGrant (core : Nat) (u : EUnit) (s : State) : Result :=
  .next (match u with
    | .front => (match (getCore s core).hold with
        | .sem imm keep => swaitFront s core imm keep
        | _ => s)
    | e => (match queueOf (getCore s core) e with
        | q :: _ => if (decodeSlot q.slot).op = 0x22 ∧ ¬ (e = .wne ∧ (getCore s core).wn.isSome = true) then
            engHead s core e else s
        | [] => s))

/-- BARRIER_RELEASE (R61). -/
def execBarrierRelease (cluster id : Nat) (s : State) : Result := .next (barRelease s cluster id)

/-- CHECKPOINT_GAP (R258). -/
def execCheckpointGap (core : Nat) (s : State) : Result := .next (gapCheckpoint s core)

/-! ### The C slot (Table 02.4) -/

def execNop (core : Nat) (s : State) : Result := .next (runC s core ⟨0, 0, 0, 0, 0, 0, 0⟩)
def execLi (core d : Nat) (imm : BitVec 32) (s : State) : Result := .next (runC s core ⟨0x01, d, 0, 0, 0, 0, imm⟩)
def execLui (core d : Nat) (imm : BitVec 32) (s : State) : Result := .next (runC s core ⟨0x02, d, 0, 0, 0, 0, imm⟩)
def execAdd (core d a b md : Nat) (imm : BitVec 32) (s : State) : Result :=
  .next (runC s core ⟨0x04, d, a, b, 0, md, imm⟩)
def execSub (core d a b md : Nat) (imm : BitVec 32) (s : State) : Result :=
  .next (runC s core ⟨0x05, d, a, b, 0, md, imm⟩)
def execAnd (core d a b md : Nat) (imm : BitVec 32) (s : State) : Result :=
  .next (runC s core ⟨0x06, d, a, b, 0, md, imm⟩)
def execOr (core d a b md : Nat) (imm : BitVec 32) (s : State) : Result :=
  .next (runC s core ⟨0x07, d, a, b, 0, md, imm⟩)
def execXor (core d a b md : Nat) (imm : BitVec 32) (s : State) : Result :=
  .next (runC s core ⟨0x08, d, a, b, 0, md, imm⟩)
def execShl (core d a b md : Nat) (imm : BitVec 32) (s : State) : Result :=
  .next (runC s core ⟨0x09, d, a, b, 0, md, imm⟩)
def execShr (core d a b md : Nat) (imm : BitVec 32) (s : State) : Result :=
  .next (runC s core ⟨0x0A, d, a, b, 0, md, imm⟩)
def execSar (core d a b md : Nat) (imm : BitVec 32) (s : State) : Result :=
  .next (runC s core ⟨0x0B, d, a, b, 0, md, imm⟩)
def execMul (core d a b : Nat) (s : State) : Result := .next (runC s core ⟨0x0C, d, a, b, 0, 0, 0⟩)
def execMin (core d a b : Nat) (s : State) : Result := .next (runC s core ⟨0x0D, d, a, b, 0, 0, 0⟩)
def execMax (core d a b : Nat) (s : State) : Result := .next (runC s core ⟨0x0E, d, a, b, 0, 0, 0⟩)
def execCmp (core d a b md : Nat) (s : State) : Result := .next (runC s core ⟨0x0F, d, a, b, 0, md, 0⟩)
def execMova (core d a : Nat) (s : State) : Result := .next (runC s core ⟨0x10, d, a, 0, 0, 0, 0⟩)
def execMovs (core d a : Nat) (s : State) : Result := .next (runC s core ⟨0x11, d, a, 0, 0, 0, 0⟩)
def execAdda (core d a b md : Nat) (imm : BitVec 32) (s : State) : Result :=
  .next (runC s core ⟨0x12, d, a, b, 0, md, imm⟩)
def execLd (core d a : Nat) (imm : BitVec 32) (s : State) : Result := .next (runC s core ⟨0x14, d, a, 0, 0, 0, imm⟩)
def execSt (core b a : Nat) (imm : BitVec 32) (s : State) : Result := .next (runC s core ⟨0x15, 0, a, b, 0, 0, imm⟩)
def execBr (core : Nat) (imm : BitVec 32) (s : State) : Result := .next (runC s core ⟨0x18, 0, 0, 0, 0, 0, imm⟩)
def execBrnz (core a : Nat) (imm : BitVec 32) (s : State) : Result := .next (runC s core ⟨0x19, 0, a, 0, 0, 0, imm⟩)
def execBrz (core a : Nat) (imm : BitVec 32) (s : State) : Result := .next (runC s core ⟨0x1A, 0, a, 0, 0, 0, imm⟩)
def execLoop (core a : Nat) (imm : BitVec 32) (s : State) : Result := .next (runC s core ⟨0x1B, 0, a, 0, 0, 0, imm⟩)
def execRdcyc (core d : Nat) (s : State) : Result := .next (runC s core ⟨0x1C, d, 0, 0, 0, 0, 0⟩)
def execRdtime (core d : Nat) (s : State) : Result := .next (runC s core ⟨0x1D, d, 0, 0, 0, 0, 0⟩)
def execSset (core a : Nat) (imm : BitVec 32) (s : State) : Result := .next (runC s core ⟨0x20, 0, a, 0, 0, 0, imm⟩)
def execSread (core d : Nat) (imm : BitVec 32) (s : State) : Result := .next (runC s core ⟨0x21, d, 0, 0, 0, 0, imm⟩)
def execBarCore (core : Nat) (s : State) : Result := .next (runC s core ⟨0x24, 0, 0, 0, 0, 0, 0⟩)
def execBarCl (core : Nat) (imm : BitVec 32) (s : State) : Result := .next (runC s core ⟨0x25, 0, 0, 0, 0, 0, imm⟩)
def execCheckpoint (core : Nat) (s : State) : Result := .next (runC s core ⟨0x28, 0, 0, 0, 0, 0, 0⟩)
def execHalt (core : Nat) (s : State) : Result := .next (runC s core ⟨0x2F, 0, 0, 0, 0, 0, 0⟩)

/-! ### Instructions of the engines -/

/-- An engine's instruction on the operands as they stand now; one that has to wait goes to the head of its queue. -/
def runEng (s : State) (n : Nat) (e : EUnit) (x : Insn) : State :=
  let q := capture s n (engSlot e) x
  match engInsn s n e x q with
  | some t => t
  | none => updCore s n (fun c => setQueue c e (q :: queueOf c e))

/-- A semaphore instruction's MOD in the slot of unit `u`: SWAIT.G or not, and in the X slot the engine. -/
def semMod (u : EUnit) (g : Bool) : Nat :=
  match u with
  | .cdm => if g then 4 else 0
  | .wne => if g then 5 else 1
  | .ate => if g then 6 else 2
  | _ => if g then 1 else 0

/-- A semaphore instruction in the slot of unit `u`. -/
def runSem (s : State) (n : Nat) (u : EUnit) (op : Nat) (g : Bool) (imm : BitVec 32) : State :=
  match u with
  | .front => runC s n ⟨op, 0, 0, 0, 0, semMod .front g, imm⟩
  | e => runEng s n e ⟨op, 0, 0, 0, 0, semMod e g, imm⟩

def execSwait (core : Nat) (u : EUnit) (imm : BitVec 32) (s : State) : Result := .next (runSem s core u 0x22 false imm)
def execSwaitG (core : Nat) (u : EUnit) (imm : BitVec 32) (s : State) : Result := .next (runSem s core u 0x22 true imm)
def execSsig (core : Nat) (u : EUnit) (imm : BitVec 32) (s : State) : Result := .next (runSem s core u 0x23 false imm)

def execMcfg (core a : Nat) (s : State) : Result := .next (runEng s core .mxe ⟨0x40, 0, a, 0, 0, 0, 0⟩)
def execMscale (core a b : Nat) (s : State) : Result := .next (runEng s core .mxe ⟨0x41, 0, a, b, 0, 0, 0⟩)
def execMzero (core t : Nat) (s : State) : Result := .next (runEng s core .mxe ⟨0x42, t, 0, 0, 0, 0, 0⟩)
def execMmac (core t a b c : Nat) (s : State) : Result := .next (runEng s core .mxe ⟨0x43, t, a, b, c, 0, 0⟩)
def execMld (core t a : Nat) (s : State) : Result := .next (runEng s core .mxe ⟨0x44, t, a, 0, 0, 0, 0⟩)
def execMout (core t d md : Nat) (imm : BitVec 32) (s : State) : Result :=
  .next (runEng s core .mxe ⟨0x45, d, 0, 0, t, md, imm⟩)

def execVld (core d a : Nat) (imm : BitVec 32) (s : State) : Result :=
  .next (runEng s core .vxe ⟨0x60, d, a, 0, 0, 0, imm⟩)
def execVst (core b a : Nat) (imm : BitVec 32) (s : State) : Result :=
  .next (runEng s core .vxe ⟨0x61, 0, a, b, 0, 0, imm⟩)
def execVldg (core d a b : Nat) (s : State) : Result := .next (runEng s core .vxe ⟨0x62, d, a, b, 0, 0, 0⟩)
def execVbcast (core d a md : Nat) (s : State) : Result := .next (runEng s core .vxe ⟨0x63, d, a, 0, 0, md, 0⟩)
def execVadd (core d a b md : Nat) (s : State) : Result := .next (runEng s core .vxe ⟨0x64, d, a, b, 0, md, 0⟩)
def execVsub (core d a b md : Nat) (s : State) : Result := .next (runEng s core .vxe ⟨0x65, d, a, b, 0, md, 0⟩)
def execVmul (core d a b md : Nat) (s : State) : Result := .next (runEng s core .vxe ⟨0x66, d, a, b, 0, md, 0⟩)
def execVmin (core d a b md : Nat) (s : State) : Result := .next (runEng s core .vxe ⟨0x67, d, a, b, 0, md, 0⟩)
def execVmax (core d a b md : Nat) (s : State) : Result := .next (runEng s core .vxe ⟨0x68, d, a, b, 0, md, 0⟩)
def execVfma (core d a b c md : Nat) (s : State) : Result := .next (runEng s core .vxe ⟨0x69, d, a, b, c, md, 0⟩)
def execVabs (core d a md : Nat) (s : State) : Result := .next (runEng s core .vxe ⟨0x6A, d, a, 0, 0, md, 0⟩)
def execVneg (core d a md : Nat) (s : State) : Result := .next (runEng s core .vxe ⟨0x6B, d, a, 0, 0, md, 0⟩)
def execVcmp (core d a b md : Nat) (imm : BitVec 32) (s : State) : Result :=
  .next (runEng s core .vxe ⟨0x6C, d, a, b, 0, md, imm⟩)
def execVsel (core d a b c md : Nat) (s : State) : Result := .next (runEng s core .vxe ⟨0x6D, d, a, b, c, md, 0⟩)
def execVshuf (core d a b md : Nat) (s : State) : Result := .next (runEng s core .vxe ⟨0x6E, d, a, b, 0, md, 0⟩)
def execVred (core d a md : Nat) (imm : BitVec 32) (s : State) : Result :=
  .next (runEng s core .vxe ⟨0x6F, d, a, 0, 0, md, imm⟩)
def execVexp2 (core d a md : Nat) (s : State) : Result := .next (runEng s core .vxe ⟨0x70, d, a, 0, 0, md, 0⟩)
def execVlog2 (core d a md : Nat) (s : State) : Result := .next (runEng s core .vxe ⟨0x71, d, a, 0, 0, md, 0⟩)
def execVrcp (core d a md : Nat) (s : State) : Result := .next (runEng s core .vxe ⟨0x72, d, a, 0, 0, md, 0⟩)
def execVrsq (core d a md : Nat) (s : State) : Result := .next (runEng s core .vxe ⟨0x73, d, a, 0, 0, md, 0⟩)
def execVcvt (core d a md : Nat) (imm : BitVec 32) (s : State) : Result :=
  .next (runEng s core .vxe ⟨0x74, d, a, 0, 0, md, imm⟩)
def execVrope (core d a b md : Nat) (s : State) : Result := .next (runEng s core .vxe ⟨0x75, d, a, b, 0, md, 0⟩)
def execVtld (core d t : Nat) (imm : BitVec 32) (s : State) : Result :=
  .next (runEng s core .vxe ⟨0x76, d, 0, 0, t, 0, imm⟩)
def execVtst (core t a : Nat) (imm : BitVec 32) (s : State) : Result :=
  .next (runEng s core .vxe ⟨0x77, 0, a, 0, t, 0, imm⟩)
def execVmovs (core d a md : Nat) (imm : BitVec 32) (s : State) : Result :=
  .next (runEng s core .vxe ⟨0x78, d, a, 0, 0, md, imm⟩)

def execDmvStart (core ch a : Nat) (s : State) : Result := .next (runEng s core .cdm ⟨0x80, 0, a, 0, ch, 0, 0⟩)
def execDmvWait (core ch : Nat) (s : State) : Result := .next (runEng s core .cdm ⟨0x81, 0, 0, 0, ch, 0, 0⟩)
def execDmvStop (core ch : Nat) (s : State) : Result := .next (runEng s core .cdm ⟨0x82, 0, 0, 0, ch, 0, 0⟩)
def execSyncMem (core : Nat) (s : State) : Result := .next (runEng s core .cdm ⟨0x83, 0, 0, 0, 0, 0, 0⟩)

end Sys2Proof.Machine
end

