-- ==== Sys2Proof/Machine/Drift.lean ====
section
/-! DEFINITION. Drift's shares (R206-R208, R212): the capacity of each resource, the effective minima and their
indications, and the admission of a minimum. -/

namespace Sys2Proof.Machine

/-- Is a cluster's store out of Drift's reach: parked, out of service, or on a die out of service (R206)? -/
def cluGone (s : State) (c : Nat) : Bool :=
  parked s (dieOfCluster c) || !(getClu s c).inService || !(getDie s (dieOfCluster c)).inService

/-- Retired pseudo-channels of a stack. -/
def retiredCount (s : State) (k : Nat) : Nat := popcount (rd s (Reg.MEM_PCH_RETIRED k) &&& maskOf 31 0)

/-- The capacity of a resource in Drift units (Table 07.10); `slow` is Field's DRAM rate. -/
def capAt (s : State) (r : Nat) (slow : Bool) : Nat :=
  if r < 8 then
    let base := if strong s (r / 2) then (if slow then 5376 else 7168) else (if slow then 6144 else 8192)
    base * (32 - retiredCount s r) / 32
  else if cluGone s (r - 8) then 0 else 20480

/-- The limit of a capacity: ⌊0.85 × CAP⌋ (R206). -/
def limitOf (cap : Nat) : Nat := cap * 85 / 100

def minOf (s : State) (r c : Nat) : Nat := rdf s (Reg.DRIFT_SHARE (r * 8 + c)) 15 0
def effOf (s : State) (r c : Nat) : Nat := rdf s (Reg.DRIFT_SHARE (r * 8 + c)) 31 16

/-- The sum of a resource's minima over classes 1-7. -/
def minSum (s : State) (r : Nat) : Nat := ((List.range 7).map (fun i => minOf s r (i + 1))).foldl (· + ·) 0

/-- The effective minimum of class `c` on a resource of capacity `cap` (R212). -/
def effNew (s : State) (r cap c : Nat) : Nat :=
  let l := limitOf cap
  let m0 := minOf s r 0
  let sum := minSum s r
  if cap = 0 then 0
  else if m0 + sum ≤ l then minOf s r c
  else if m0 ≤ l then (if c = 0 then m0 else minOf s r c * (l - m0) / sum)
  else if c = 0 then l else 0

/-- Does the resource stand in a class-0 shortfall? -/
def shortfall (s : State) (r : Nat) : Bool :=
  rdf s (Reg.DRIFT_CAP r) 15 0 != 0 && decide (effOf s r 0 < minOf s r 0)

/-- Is the resource derated? -/
def derated (s : State) (r : Nat) : Bool := (List.range 8).any (fun c => decide (effOf s r c < minOf s r c))

/-- The effective minima of a resource recomputed under a capacity (R212), with DERATE_EV, CLASS0_SHORT and their
notices; `was` says whether the resource stood in a shortfall before. -/
def driftRecompute (s : State) (r cap : Nat) (was : Bool) : State :=
  let old := (List.range 8).map (effOf s r)
  let nowWas := rdb s Reg.DRIFT_STATUS 4
  let s := wrn s (Reg.DRIFT_CAP r) (cap + limitOf cap * 65536)
  let effs := (List.range 8).map (effNew s r cap)
  let s := forUpTo 8 (fun c t => wrf t (Reg.DRIFT_SHARE (r * 8 + c)) 31 16 (effs.getD c 0)) s
  let s := wrb s Reg.DRIFT_DERATED_MAP r (derated s r)
  let s := wrb s Reg.DRIFT_STATUS 2 (decide (rdf s Reg.DRIFT_DERATED_MAP 23 0 ≠ 0))
  let s := wrb s Reg.DRIFT_STATUS 4 ((List.range 24).any (shortfall s))
  let s := if old = effs then s
    else notify (hwSetBit s Reg.DRIFT_STATUS Reg.DRIFT_EVCNT 1) "rime" "DERATE_EV" r
  let s := if shortfall s r ∧ ¬ was then
      let s := notify (hwSetBit s Reg.DRIFT_STATUS Reg.DRIFT_EVCNT 3) "serac" "CLASS0_SHORT" r
      { s with serac := { s.serac with pend := s.serac.pend ++ [.class0] } }
    else s
  if nowWas ∧ rdb s Reg.DRIFT_STATUS 4 = false then
    hold (notify s "serac" "CLASS0_NOW cleared" 0) 3 false
  else s

/-- A resource's capacity has changed (R206, R212). -/
def driftCap (s : State) (r : Nat) : State :=
  let cap := capAt s r (getDie s (r / 2)).slowDram
  if cap = rdf s (Reg.DRIFT_CAP r) 15 0 then s else driftRecompute s r cap (shortfall s r)

/-- Every resource of a die re-examined: its two controllers and its four cluster stores. -/
def driftDie (s : State) (d : Nat) : State :=
  let s := driftCap (driftCap s (2 * d)) (2 * d + 1)
  forUpTo 4 (fun i t => driftCap t (8 + 4 * d + i)) s

/-- Firmware sets every MIN of a cluster that leaves service or parks to 0 (R206). -/
def driftClear (s : State) (c : Nat) : State :=
  forUpTo 8 (fun k t => wrf t (Reg.DRIFT_SHARE ((8 + c) * 8 + k)) 15 0 0) s

/-- A write of a MIN field (R208): one that raises it is applied only while the sum of all minima stays within LIMIT,
and is refused otherwise. -/
def driftShare (s : State) (r c v : Nat) : State :=
  let old := minOf s r c
  let sum := minOf s r 0 + minSum s r - old + v
  let cap := rdf s (Reg.DRIFT_CAP r) 15 0
  if old < v ∧ limitOf cap < sum then
    hwSetBit (wrf s Reg.DRIFT_STATUS 12 8 r) Reg.DRIFT_STATUS Reg.DRIFT_EVCNT 0
  else driftRecompute (wrf s (Reg.DRIFT_SHARE (r * 8 + c)) 15 0 v) r cap (shortfall s r)

/-- May a load add `v` to class `c` on resource `r` (R207)? -/
def driftAdmits (s : State) (r c v : Nat) : Bool :=
  let cap := rdf s (Reg.DRIFT_CAP r) 15 0
  let sum := minOf s r 0 + minSum s r + v
  decide (sum ≤ limitOf cap) &&
    (decide (c ≠ 0) || decide (minOf s r 0 + v ≤ limitOf (capAt s r true)))

/-- DRIFT_SHARE_WRITE (R208): a write of a MIN field by firmware. -/
def execDriftShareWrite (who : Requester) (res cls : Nat) (val : BitVec 32) (s : State) : Result :=
  .next (if mayWrite s who .drift 0 (0x100 + (res * 8 + cls) * 4) then driftShare s res cls (val.toNat % 65536)
    else s)

end Sys2Proof.Machine
end

