-- ==== Sys2Proof/Machine/Nvm.lean ====
section
/-! DEFINITION. The persistent settings as memory (R409-R412): copies, sectors and their wear, and the retirement list
(R183). -/

namespace Sys2Proof.Machine

/-- First sector and number of sectors of a region (Table 15.4). -/
def regionSectors (r : Nat) : Nat × Nat :=
  match r with
  | 0 => (0, 2)
  | 1 => (2, 2)
  | 2 => (4, 2)
  | 3 => (6, 2)
  | 4 => (8, 2)
  | 5 => (10, 4)
  | 6 => (14, 2)
  | _ => (64, 64)

def nvmCopy (s : State) (r : Nat) : NvmCopy := Tab.get {} s.power.nvm.copies r

def setNvm (s : State) (x : NvmSt) : State := { s with power := { s.power with nvm := x } }

/-- The sectors of the half that holds the older copy. -/
def oldSectors (s : State) (r : Nat) : List Nat :=
  let (f, n) := regionSectors r
  (List.range (n / 2)).map (fun i => f + (nvmCopy s r).oldHalf * (n / 2) + i)

/-- Would an erase of the older copy meet a sector at its endurance (R412)? -/
def sectorWorn (s : State) (k : Nat) : Bool := decide (100000 ≤ rdf s (Reg.NVM_SECTOR_ERASES k) 23 0)
def regionWorn (s : State) (r : Nat) : Bool := (oldSectors s r).any (sectorWorn s)

/-- A sector erased. A sector that reaches its endurance counts as worn in Icecore. -/
def eraseSector (s : State) (k : Nat) : State :=
  let s := incSat s (Reg.NVM_SECTOR_ERASES k) 24 1
  if rdf s (Reg.NVM_SECTOR_ERASES k) 23 0 = 100000 then iceAdd s 0x210 32 1 else s

/-- A region's new copy programmed in the half of the older one (R411). -/
def nvmProgram (s : State) (r : Nat) (bytes : List Byte) : State :=
  let c := nvmCopy s r
  let s := (oldSectors s r).foldl eraseSector s
  let new : NvmCopy := ⟨c.seq + 1, bytes, c.bytes, 1 - c.oldHalf⟩
  setNvm s { s.power.nvm with copies := Tab.set s.power.nvm.copies r new }

/-- A region whose content the device keeps as typed fields is stored again; a worn sector keeps the last copy. -/
def nvmSave (s : State) (r : Nat) (x : NvmSt) : State :=
  if regionWorn s r then hwSetBit s Reg.NVM_STATUS Reg.NVM_EVCNT 2
  else nvmProgram (setNvm s x) r (Config.freeBytes r ((nvmCopy s r).seq + 1))

/-- A retirement recorded in the list and in Icecore (R183, R412, R413): a worn sector loses the list's entry. -/
def recordRetire (s : State) (p : Nat × Nat) : State :=
  let s := iceEvent (iceAdd s 0x200 32 1) 1 (p.1 * 32 + p.2) 0x69
  let s := setNvm s { s.power.nvm with pchPassed := s.power.nvm.pchPassed.filter (· != p) }
  if s.power.nvm.retire.any (fun e => e.stack == p.1 && e.pch == p.2) then s
  else if regionWorn s 1 then s
  else nvmProgram (setNvm s { s.power.nvm with retire := s.power.nvm.retire ++ [⟨p.1 / 2, p.1, p.2, now s⟩] }) 1
    (Config.freeBytes 1 ((nvmCopy s 1).seq + 1))

end Sys2Proof.Machine
end

