-- ==== Sys2Proof/Machine/Moraine.lean ====
section
/-! DEFINITION. Reads and writes of DRAM and store words as commands (R177-R184): their outcomes, the corrected-error
log (R180-R182), retirement (R183), waiting requests (R20, R174, R275) and store fills (R174). -/

namespace Sys2Proof.Machine

/-! ### The log (R181) -/

/-- The entry a record at `addr` goes to: the one that holds the address, else the lowest free one. -/
def mlogSlot (s : State) (l : LogId) (addr : Nat) : Option (Nat × Bool) :=
  match (List.range 16).find? (fun i =>
      bit (rd s (Reg.MLOG_ENTRY_A l i)) 63 && fld (rd s (Reg.MLOG_ENTRY_A l i)) 47 0 == addr) with
  | some i => some (i, true)
  | none => ((List.range 16).find? (fun i => !bit (rd s (Reg.MLOG_ENTRY_A l i)) 63)).map (fun i => (i, false))

/-- A corrected (0), transient (1) or permanent (2) outcome logged. -/
def mlogRecord (s : State) (l : LogId) (addr pos kind : Nat) : State :=
  let st := Reg.MLOG_STATUS l
  let ev := Reg.MLOG_EVCNT l
  let s := if kind = 1 then incSat s (Reg.MLOG_TRANSIENT l) 32 1 else s
  let perm : Word := if kind = 2 then 4 else 0
  match mlogSlot s l addr with
  | some (i, true) =>
    let a := Reg.MLOG_ENTRY_A l i
    let b := Reg.MLOG_ENTRY_B l i
    let old := fld (rd s a) 56 55
    let s := wrf s a 56 55 (if old < kind then kind else old)
    let s := wrf s b 15 0 (satAdd 16 (rdf s b 15 0) 1)
    hwSet s st ev (1 ||| perm)
  | some (i, false) =>
    let s := wrn s (Reg.MLOG_ENTRY_A l i) (addr % 2 ^ 48 + pos % 128 * 2 ^ 48 + kind * 2 ^ 55 + 2 ^ 63)
    let s := wrn s (Reg.MLOG_ENTRY_B l i) (1 + now32 s * 2 ^ 32)
    hwSet s st ev (1 ||| perm)
  | none => hwSet (incSat s (Reg.MLOG_OVF l) 32 1) st ev (2 ||| perm)

/-- Entries freed by MLOG_CLEAR: those named, or all. -/
def mlogFree (s : State) (l : LogId) (v : Word) : State :=
  forUpTo 16 (fun i t => if bit v 16 ∨ bit v i then wr (wr t (Reg.MLOG_ENTRY_A l i) 0) (Reg.MLOG_ENTRY_B l i) 0 else t)
    s

/-! ### Retirement (R183) -/

/-- A pseudo-channel retires: its bit and flag, the record, Firn's pools and Drift's capacities. -/
def pchRetire (s : State) (p : Nat × Nat) : State :=
  if retiredPch s p then s
  else
    let s := wrb s (Reg.MEM_PCH_RETIRED p.1) p.2 true
    let s := hwSetBit s (Reg.MEM_STATUS p.1) (Reg.MEM_EVCNT p.1) 0
    let s := recordRetire s p
    let s := if s.firn.init.isSome then firnCounts s else s
    driftCap s p.1

/-! ### Outcomes (R177, Table 06.7) -/

/-- The log block, the error level, the unit and the CE and DE sources of a place's memory. -/
structure MemUnit where
  log : LogId
  lvl : Level
  unit : Nat
  ce : Nat
  addr : Nat
deriving DecidableEq, Repr

/-- Who owns the word at an address. -/
def memUnit (s : State) (a : Nat) : Option MemUnit :=
  match placeOf a with
  | .dram d off => some ⟨.dram (holderOf s d off).1, .die, d, 0x68, a⟩
  | .coreStore n off => some ⟨.coreStore n, .core, n, 0x28, off⟩
  | .instrStore n off => some ⟨.instrStore n, .core, n, 0x2A, off⟩
  | .clusterStore c off => some ⟨.clusterStore c, .cluster, c, 0x48, off⟩
  | _ => none

/-- Is write-back of corrected words on (R179)? -/
def writeBack (s : State) (a : Nat) : Bool :=
  match placeOf a with
  | .dram d off => rdb s (Reg.MEM_CTL (holderOf s d off).1) 0
  | .coreStore n _ => rdb s (Reg.DIE_MEM_CTL (dieOfCore n)) 1
  | .instrStore n _ => rdb s (Reg.DIE_MEM_CTL (dieOfCore n)) 1
  | .clusterStore c _ => rdb s (Reg.DIE_MEM_CTL (dieOfCluster c)) 1
  | _ => false

/-- A corrected or transient outcome: CE, the log, and the word written back where write-back is on. -/
def memCorrected (s : State) (u : MemUnit) (a pos kind : Nat) : State :=
  let s := detect s u.lvl u.unit .ce u.ce u.addr
  let s := if kind = 1 then
      match u.log with
      | .dram k => hwSetBit s (Reg.MEM_STATUS k) (Reg.MEM_EVCNT k) 2
      | _ => s
    else s
  let s := mlogRecord s u.log u.addr pos kind
  if writeBack s a then setWord s a ⟨(getWord s a).v, false⟩ else s

/-- The pseudo-channels a permanent DRAM outcome retires: those the decoder locates in Strong mode (list indices of
the die), else the one that holds the line. -/
def permPchs (s : State) (d off : Nat) (located : List Nat) : List (Nat × Nat) :=
  let ms := members s d
  let named := if strong s d then located.filterMap (fun i => ms[i]?) else []
  if named.isEmpty then [holderOf s d off] else named

/-- A permanent outcome: DE (an instruction-store word: UC 0x22), the log, the notices, and in DRAM the retirement. -/
def memPermanent (s : State) (u : MemUnit) (a : Nat) (located : List Nat) : State :=
  let s := match u.log with
    | .instrStore n => detect s .core n .uc 0x22 u.addr
    | _ => detect s u.lvl u.unit .de (u.ce + 1) u.addr
  let pos := match located with
    | [i] => i
    | _ => 0x7F
  let s := mlogRecord s u.log u.addr pos 2
  let s := notify (notify s "die controller" "KIND 2" u.addr) "serac" "KIND 2" u.addr
  match placeOf a with
  | .dram d off => (permPchs s d off located).foldl pchRetire s
  | _ => s

/-- The outcome of one read of a stored word. -/
def readOutcome (s : State) (a : Nat) (a1 a2 : Attempt) : PWord × State :=
  let w := getWord s a
  match memUnit s a with
  | none => (w, s)
  | some u =>
    if w.p then (w, s)
    else match a1 with
      | .clean => (w, s)
      | .corrected pos => (w, memCorrected s u a pos 0)
      | .uncorrectable _ =>
        let s := match u.log with
          | .coreStore n => incSat s (Reg.CORE_BANK_STALLS n) 32 4
          | _ => s
        (match a2 with
          | .clean => (w, memCorrected s u a 0x7F 1)
          | .corrected pos => (w, memCorrected s u a pos 1)
          | .uncorrectable located => (⟨freshVal s, true⟩, memPermanent (drawn s) u a located))

/-! ### Requests that wait (R20, R174, R275) -/

/-- Do the die's stacks hold new requests? -/
def dramHeld (s : State) (d : Nat) : Bool :=
  rdb s (Reg.MEM_STATUS (2 * d)) 3 || (getDie s d).selfRefresh || (getDie s d).linksClosed

/-- Does the requester lie on the die? -/
def onDie (d : Nat) : Requester → Bool
  | .engine n => dieOfCore n == d
  | .chan (.core n _) _ => dieOfCore n == d
  | .chan (.cluster c _) _ => dieOfCluster c == d
  | _ => false

/-- The die whose stores an address lies in. -/
def storeDie (a : Nat) : Option Nat :=
  match placeOf a with
  | .coreStore n _ => if n < 128 then some (dieOfCore n) else none
  | .instrStore n _ => if n < 128 then some (dieOfCore n) else none
  | .clusterStore c _ => some (dieOfCluster c)
  | _ => none

/-- Does a request from outside the die meet a store that is being filled (R174)? -/
def storeHeld (s : State) (who : Requester) (a : Nat) : Option Nat :=
  match storeDie a with
  | some d => if !rdb s (Reg.DIE_MEM_STATUS d) 0 && !onDie d who then some d else none
  | none => none

/-- A read served: refused, unmapped or absent, or the word by its outcome. -/
def serveRead (s : State) (r : MemReq) : State :=
  let a := r.addr / 8 * 8
  let s := lineRead s r.lab a
  let (w, s) := if refusedBy s r.who a then (⟨0, true⟩, secViolation s a)
    else match placeOf a with
      | .unmapped => (⟨0, true⟩, detect s .package 0 .de 0x91 a)
      | .dram d off => (match absentAt s d off with
        | some k => (⟨0, true⟩, absentAccess s k false a)
        | none => readOutcome s a r.a1 r.a2)
      | .reg => let x := regRead s r.who a 0; (PWord.clean x.1, x.2)
      | _ => readOutcome s a r.a1 r.a2
  emit s (.readData a w.v w.p)

/-- A write served. A write from outside into the store of a twinned primary reaches its secondary too. -/
def serveWrite (s : State) (r : MemReq) : State :=
  let a := r.addr / 8 * 8
  let w : PWord := ⟨r.val, r.poison⟩
  let s := busWrite (driftAccess s r.lab a) r.who r.lab a w
  match r.who with
  | .engine _ => s
  | _ => if refusedBy s r.who a then s else mirrored s a w

def serveReq (s : State) (r : MemReq) : State := if r.write then serveWrite s r else serveRead s r

/-- A request arrives: it waits in its die's queue, or is served. A request waits behind those that wait already, so
none is reordered. -/
def memRequest (s : State) (r : MemReq) : State :=
  match placeOf (r.addr / 8 * 8) with
  | .dram d _ =>
    if dramHeld s d ∨ ¬ (getDie s d).held.isEmpty then
      setDie s d { getDie s d with held := (getDie s d).held ++ [r] }
    else serveReq s r
  | _ => match storeHeld s r.who r.addr with
    | some d => setDie s d { getDie s d with fillWait := (getDie s d).fillWait ++ [r] }
    | none => serveReq s r

/-- The requests a die's stacks held are served in order. -/
def drainHeld (s : State) (d : Nat) : State :=
  if dramHeld s d then s
  else
    let q := (getDie s d).held
    q.foldl serveReq (setDie s d { getDie s d with held := [] })

/-! ### Fills (R174) -/

/-- Bytes in a range of addresses taken out of a memory. -/
def memClear (m : List Host.Cell) (lo hi : Nat) : List Host.Cell := m.filter (fun e => !(lo ≤ e.1 && e.1 < hi))

/-- Every store word of a die zero with clear poison. -/
def fillStores (s : State) (d : Nat) : State :=
  let lo := 0x104000000 + d * 0x40000000
  let hi := 0x10A000000 + d * 0x40000000
  { s with mem := memClear s.mem lo hi, poison := s.poison.filter (fun w => !(lo / 8 ≤ w && w < hi / 8)) }

/-- A fill begins: the stores are zero and accesses from outside wait until it is done. -/
def fillBegin (s : State) (d : Nat) : State := wrb (fillStores s d) (Reg.DIE_MEM_STATUS d) 0 false

/-- A fill done: FILL_DONE, and the waiting accesses served. -/
def fillDone (s : State) (d : Nat) : State :=
  let s := wrb s (Reg.DIE_MEM_STATUS d) 0 true
  let q := (getDie s d).fillWait
  q.foldl serveReq (setDie s d { getDie s d with fillWait := [] })

/-- A write of DIE_MEM_CTL.FILL. -/
def fillStart (s : State) (d : Nat) : State :=
  if (List.range 32).any (fun l => running s (32 * d + l)) then
    hwSetBit s (Reg.DIE_MEM_STATUS d) (Reg.DIE_MEM_EVCNT d) 1
  else fillBegin s d

/-! ### The commands -/

/-- MEMORY_READ (R177). -/
def execMemoryRead (who : Requester) (lab : Label) (addr : Nat) (a1 a2 : Attempt) (s : State) : Result :=
  .next (memRequest s ⟨false, who, lab, addr, 0, false, a1, a2⟩)

/-- MEMORY_WRITE (R167, R171, R330). -/
def execMemoryWrite (who : Requester) (lab : Label) (addr : Nat) (val : Word) (poison : Bool) (s : State) : Result :=
  .next (memRequest s ⟨true, who, lab, addr, val, poison, .clean, .clean⟩)

/-- STORE_FILL (R174): a write of DIE_MEM_CTL.FILL. -/
def execStoreFill (who : Requester) (die : Nat) (s : State) : Result :=
  .next (if mayWrite s who .die die 0x200 then fillStart s die else s)

/-- MLOG_CLEAR (R181): entries freed, and then a record of the same cycle. -/
def execMlogClear (log : LogId) (val : BitVec 32) (rec_ : Option MlogRec) (s : State) : Result :=
  .next (let s := mlogFree s log (val.zeroExtend 64)
    match rec_ with
    | some r => mlogRecord s log r.addr r.pos r.kind
    | none => s)

end Sys2Proof.Machine
end

