-- ==== Sys2Proof/Machine/Rime.lean ====
section
/-! DEFINITION. What every Rime processor's work stands on (R213-R224, R238, R243-R246): which processors run, the
functions' rings and counters, completion entries, MSI-X messages waiting to leave, and the log ring. -/

namespace Sys2Proof.Machine

/-! ### Processors (R213, R244, R246) -/

/-- Processor `p` runs firmware: released from reset, not restarting, not held. -/
def live (s : State) (p : Nat) : Bool :=
  rdb s (Reg.RIME_STATUS p) 0 && !rdb s (Reg.RIME_STATUS p) 1 && !rdb s (Reg.RIME_STATUS p) 3

/-- The device has started and has not entered recovery or Standby. -/
def booted (s : State) : Bool := s.power.boot == .ready

/-- Processor `p` serves work. -/
def serving (s : State) (p : Nat) : Bool := booted s && live s p

/-- FW_EPOCH (R245). -/
def fwEpoch (s : State) : Nat := rdf s (Reg.RIME_EPOCH 0) 31 0

/-- Firmware acting in the normal world for a ring, a log or an image. -/
def fwWho (p : Nat) : Requester := .rime p .normal

/-! ### Functions (R214, R215, R314) -/

/-- The functions in instance order, the physical function (16) last. -/
def allFns : List Nat := List.range 17

def getFn (s : State) (fn : Nat) : FnSt := Tab.get {} s.rime.fns fn
def setFn (s : State) (fn : Nat) (x : FnSt) : State := { s with rime := { s.rime with fns := Tab.set s.rime.fns fn x } }
def updFn (s : State) (fn : Nat) (f : FnSt → FnSt) : State := setFn s fn (f (getFn s fn))

/-- INST_STATEn.STATE (Table 11.3): 0 DISABLED, 1 CONFIGURED, 2 OPEN, 3 QUIESCING, 4 INSTANCE_QUIESCED. -/
def instState (s : State) (fn : Nat) : Nat := rdf s (Reg.INST_STATE 16 fn) 2 0
def setInst (s : State) (fn st : Nat) : State := wrf s (Reg.INST_STATE 16 fn) 2 0 st

/-- Opened at major 2 (R224). -/
def major2 (s : State) (fn : Nat) : Bool :=
  match (getFn s fn).version with
  | some v => v.1 == 2
  | none => false

/-- The ring pair of a function and priority, if present. -/
def ringOf (s : State) (fn prio : Nat) : Option RingRec := Tab.find (getFn s fn).recs prio

/-- Pair `prio` is stopped (ERR_PAIR, R217). -/
def pairStopped (s : State) (fn prio : Nat) : Bool := rdb s (Reg.HIF_STATUS fn) (8 + prio)

/-- The label of firmware's writes for a function (Table 07.9, R320). -/
def fnLabel (fn : Nat) : Label := ⟨7, fn⟩

/-- The difference of two 32-bit free-running counters (R216). -/
def ctrDiff (a b : Nat) : Nat := (a + 2 ^ 32 - b % 2 ^ 32) % 2 ^ 32

/-- A pair is stopped where its tail runs more than a ring ahead or its completion head passes the tail (R217). -/
def pairCheck (s : State) (fn prio : Nat) : State :=
  match ringOf s fn prio with
  | none => s
  | some r =>
    let tooMany := 2 ^ r.sqLog2 < ctrDiff (rdn s (Reg.HIF_SQ_TAIL fn prio)) (rdn s (Reg.HIF_SQ_HEAD fn prio))
    let d := ctrDiff (rdn s (Reg.HIF_CQ_HEAD fn prio)) (rdn s (Reg.HIF_CQ_TAIL fn prio))
    if (tooMany ∨ (0 < d ∧ d < 2 ^ 31)) ∧ ¬ pairStopped s fn prio ∧ 2 ≤ instState s fn ∧ live s 0 then
      hwSetBit (wrb s (Reg.HIF_STATUS fn) (8 + prio) true) (Reg.HIF_STATUS fn) (Reg.HIF_EVCNT fn) 2
    else s

/-- The 17 × 4 pairs in the order of a pass (R228): priority 0 first, instances ascending, the physical function
last. -/
def passPair (k : Nat) : Nat × Nat := (k % 17, k / 17)

/-! ### Log ring (R243) -/

/-- An entry at the hub log port: numbered, and written over the oldest, bytes 0x08-0x0F last. -/
def logPut (s : State) (r : LogRec) : State :=
  match s.rime.logCfg with
  | none => s
  | some c =>
    if r.lvl = 3 ∨ r.point = 0x0A ∨ (r.point < 64 ∧ bit c.mask r.point) then
      let a := c.base + s.rime.logSeq % 2 ^ c.log2 * 32
      let put (t : State) (k : Nat) (v : Word) : State := busWrite t (fwWho 3) fwLabel (a + k) (PWord.clean v)
      let s := put (put (put s 0 r.time) 16 r.arg0) 24 r.arg1
      let s := put s 8 (BitVec.ofNat 64 (s.rime.logSeq % 2 ^ 32 + r.proc * 2 ^ 32 + r.lvl * 2 ^ 35 + r.point * 2 ^ 40))
      { s with rime := { s.rime with logSeq := (s.rime.logSeq + 1) % 2 ^ 32 } }
    else s

/-- An entry of processor `proc`; while processor 3 restarts, others' entries wait in a buffer of 256 (Table 08.17). -/
def logEntry (s : State) (proc lvl point : Nat) (a0 a1 : Word) : State :=
  let r : LogRec := ⟨proc, lvl, point, a0, a1, now s⟩
  if live s 3 ∨ proc = 3 then logPut s r
  else if s.rime.logHeld.length < 256 then { s with rime := { s.rime with logHeld := s.rime.logHeld ++ [r] } }
  else s

/-- A trace point. -/
def trace (s : State) (proc point a0 a1 : Nat) : State :=
  logEntry s proc 0 point (BitVec.ofNat 64 a0) (BitVec.ofNat 64 a1)

/-! ### MSI-X (R312) -/

/-- A message is due on a vector of a function. -/
def msixDue (s : State) (fn vec : Nat) : State :=
  if s.rime.msixPend.contains (fn, vec) then s
  else { s with rime := { s.rime with msixPend := s.rime.msixPend ++ [(fn, vec)] } }

/-! ### Completion entries (R218, R219, R223, R224, R238) -/

/-- The status and detail an instance opened at major 2 sees (Table 08.8). -/
def statusMajor2 (st detail : Nat) : Nat × Nat :=
  if st = 0x02 then (0x01, detail)
  else if st = 0x05 then (0x01, 0xFE)
  else if st = 0x09 then (0x08, detail)
  else (st, detail)

/-- The eight words of a completion entry (Table 08.6) at completion counter `c` of a ring of `n` entries. -/
def compWords (s : State) (p : Pend) (x : Comp) (c n : Nat) : List Word :=
  let m2 := major2 s p.ent.fn
  let (st, detail) := if m2 then statusMajor2 x.status x.detail else (x.status, x.detail)
  let phase := 1 - c / n % 2
  [ BitVec.ofNat 64 (st + phase * 256 + b2n x.late * 512 + fwEpoch s % 65536 * 65536 + p.ent.tag.toNat * 2 ^ 32),
    BitVec.ofNat 64 (detail % 256 + p.opcode * 256 + x.kernel * 65536),
    if m2 then 0 else now s,
    BitVec.ofNat 64 p.job,
    x.results.getD 0 0, x.results.getD 1 0, x.results.getD 2 0, x.results.getD 3 0 ]

/-- A completion entry written on its pair: bytes 0x08-0x3F first, then bytes 0x00-0x07, then the tail (R219). -/
def writeComp (s : State) (p : Pend) (x : Comp) : State :=
  match ringOf s p.ent.fn p.ent.prio with
  | none => s
  | some r =>
    let n := 2 ^ r.cqLog2
    let c := rdn s (Reg.HIF_CQ_TAIL p.ent.fn p.ent.prio)
    let a := r.cqBase + c % n * 64
    let ws := (compWords s p x c n).map PWord.clean
    let s := busWriteWords s (fwWho 0) (fnLabel p.ent.fn) (a + 8) (ws.drop 1)
    let s := busWriteWords s (fwWho 0) (fnLabel p.ent.fn) a (ws.take 1)
    let s := incWrap s (Reg.HIF_CQ_TAIL p.ent.fn p.ent.prio) 32 1
    if r.irqEn then msixDue s p.ent.fn r.vector else s

/-- The counts of R238 at a completion of a JOB_RUN. -/
def account (s : State) (p : Pend) (x : Comp) : State :=
  if p.opcode = 0x01 then
    updFn s p.ent.fn (fun f =>
      if x.status ≤ 0x05 then { f with
        completed := f.completed + 1, fellBack := if x.status = 0x03 then f.fellBack + 1 else f.fellBack }
      else { f with refused := f.refused + 1 })
  else s

def setPend (s : State) (l : List Pend) : State := { s with rime := { s.rime with pend := l } }
def pendOf (s : State) (pid : Nat) : Option Pend := s.rime.pend.find? (fun p => p.id == pid)
def updPend (s : State) (pid : Nat) (f : Pend → Pend) : State :=
  setPend s (s.rime.pend.map (fun p => if p.id = pid then f p else p))

/-- The entry `pid` completes with `x`: written at once, held while processor 0 does not serve (R246), or held until
the instance's reset on a stopped pair (R217). -/
def finish (s : State) (pid : Nat) (x : Comp) : State :=
  match pendOf s pid with
  | none => s
  | some p =>
    if pairStopped s p.ent.fn p.ent.prio then account (updPend s pid (fun p => { p with res := some x })) p x
    else if ¬ live s 0 then updPend s pid (fun p => { p with res := some x })
    else writeComp (account (setPend s (s.rime.pend.filter (fun q => q.id != pid))) p x) p x

/-- A plain completion status. -/
def done (s : State) (pid status : Nat) : State := finish s pid { status := status }

/-- A completion with a DETAIL or results. -/
def doneD (s : State) (pid status detail : Nat) : State := finish s pid { status := status, detail := detail }
def doneR (s : State) (pid status : Nat) (results : List Word) : State :=
  finish s pid { status := status, results := results }

/-- A consumed entry that its command row acts on: named by its ring pair and tag, opcode and operand words, not yet
begun, the oldest of several. -/
def takePend (s : State) (e : Ent) (opcode : Nat) (words : List Word) : Option Pend :=
  s.rime.pend.find? (fun p => p.ent == e && p.opcode == opcode && !p.started && p.res.isNone
    && p.words.take words.length == words)

/-- The operation of an entry has begun. -/
def begun (s : State) (pid : Nat) : State := updPend s pid (fun p => { p with started := true })

/-- Is every consumed entry of a function completed, or held on a stopped pair (R316)? -/
def drainedFn (s : State) (fn : Nat) : Bool :=
  (s.rime.pend.filter (fun p => p.ent.fn == fn)).all (fun p => p.res.isSome && pairStopped s fn p.ent.prio)

end Sys2Proof.Machine
end

