-- ==== Sys2Proof/Machine/Tasks.lean ====
section
/-! DEFINITION. What Serac sees of the supervised tasks (R265-R268, R272): their windows, releases and completions,
and the self-test slice they displace. -/

namespace Sys2Proof.Machine

/-! ### Task entries (Table 09.11) -/

def taskOn (s : State) (n : Nat) : Bool := rdb s (Reg.TASK_LIMITS n) 58
def taskImage (s : State) (n : Nat) : Word := rd s (Reg.TASK_IMAGE n)
def taskPeriod (s : State) (n : Nat) : Nat := rdf s (Reg.TASK_TIMING n) 31 0
def taskOffset (s : State) (n : Nat) : Nat := rdf s (Reg.TASK_TIMING n) 63 32
def taskBudget (s : State) (n : Nat) : Nat := rdf s (Reg.TASK_LIMITS n) 20 0
def taskRelTol (s : State) (n : Nat) : Nat := rdf s (Reg.TASK_LIMITS n) 41 21
def taskMissLimit (s : State) (n : Nat) : Nat := rdf s (Reg.TASK_LIMITS n) 49 42
def taskRecover (s : State) (n : Nat) : Nat := rdf s (Reg.TASK_LIMITS n) 57 50

def getTask (s : State) (n : Nat) : TaskRt := Tab.get {} s.serac.tasks n
def setTask (s : State) (n : Nat) (t : TaskRt) : State :=
  { s with serac := { s.serac with tasks := Tab.set s.serac.tasks n t } }

/-- The start of window `k`, in ns (R266). -/
def winStart (s : State) (n k : Nat) : Nat := (taskOffset s n + k * taskPeriod s n) * 1000

/-- Serac's flags (R36): SERAC_STATUS and the task entries share SERAC_EVCNT. -/
def seracFlag (s : State) (i : Nat) : State := hwSetBit s Reg.SERAC_STATUS Reg.SERAC_EVCNT i
def taskFlag (s : State) (n i : Nat) : State := hwSetBit s (Reg.TASK_STATE n) Reg.SERAC_EVCNT i

/-! ### Loaded images (R227, R266) -/

/-- A loaded image. -/
def imgOf (s : State) (id : Word) : Option Image := s.rime.images.find? (fun i => i.id == id && !i.loading)

/-- The tasks that supervise an image: as TASK_IMAGE names it, or as its fall-back. -/
def tasksOf (s : State) (id : Word) : List Nat :=
  (List.range 32).filter (fun n => taskOn s n && (getTask s n).live &&
    (taskImage s n == id || (match imgOf s (taskImage s n) with
      | some i => i.fallback == id
      | none => false)))

/-- A supervised image has been loaded (R268): supervision starts with the first window that begins afterwards. -/
def taskLoaded (s : State) (id : Word) : State :=
  forUpTo 32 (fun n t =>
    if taskOn t n ∧ taskImage t n = id then
      let o := taskOffset t n * 1000
      let p := taskPeriod t n * 1000
      setTask t n { live := true, win := if nowN t < o then 0 else (nowN t - o) / p + 1 }
    else t) s

/-- A supervised image has been unloaded. -/
def taskUnloaded (s : State) (id : Word) : State :=
  forUpTo 32 (fun n t =>
    if taskOn t n ∧ taskImage t n = id then setTask t n { getTask t n with live := false } else t) s

/-! ### Releases and completions (R266, R267, R272) -/

/-- The running slice is abandoned: its target restored, SERAC_ST_ABANDON counts (R272). -/
def sliceAbandon (s : State) : State :=
  match s.serac.slice with
  | none => s
  | some x => incSat (x.saved.foldl (fun t y => wr t y.1 y.2) { s with serac := { s.serac with slice := none } })
    Reg.SERAC_ST_ABANDON 32 1

/-- A release of a supervised image. -/
def taskRelease (s : State) (id : Word) : State :=
  let ns := tasksOf s id
  let s := if ns.isEmpty then s else sliceAbandon s
  ns.foldl (fun t n => setTask t n { getTask t n with releases := (getTask t n).releases ++ [nowN t] }) s

/-- A completion of a supervised image: ALIVE counts. -/
def taskCompletion (s : State) (id : Word) : State :=
  (tasksOf s id).foldl (fun t n =>
    let t := setTask t n { getTask t n with completions := (getTask t n).completions ++ [nowN t] }
    wrf t (Reg.TASK_STATE n) 15 0 ((rdf t (Reg.TASK_STATE n) 15 0 + 1) % 65536)) s

/-- The job whose kernel a core runs. -/
def jobOn (s : State) (n : Nat) : Option Job :=
  match (getCore s n).job with
  | some k => s.rime.jobs.find? (fun j => j.serial == k)
  | none => none

/-- A START on a core as Serac sees it: kernel 0 of a supervised image on its lowest-numbered core. -/
def seeStart (s : State) (n : Nat) : State :=
  match jobOn s n with
  | some j => (match imgOf s j.run with
    | some i => if j.kernel = 0 ∧ i.cores.head? = some n then taskRelease s j.run else s
    | none => s)
  | none => s

/-- A HALTED on a core as Serac sees it: the last kernel of a supervised image on its lowest-numbered core. -/
def seeHalt (s : State) (n : Nat) : State :=
  match jobOn s n with
  | some j => (match imgOf s j.run with
    | some i => if j.kernel + 1 = i.kernels.length ∧ i.cores.head? = some n then taskCompletion s j.run else s
    | none => s)
  | none => s

/-- An Idle device returns to the mode in force, CCLK ungated (R401). -/
def leaveIdle (s : State) : State :=
  if rdf s Reg.PWR_MODE 2 0 = 3 then
    wrf s Reg.PWR_MODE 2 0 s.power.force
  else s

/-- A write of CORE_CTL.START takes effect: an Idle device ungates first (R401). -/
def startCore (s : State) (n : Nat) : State :=
  if running s n then s else seeStart (coreStart (leaveIdle s) n) n

/-- The drain after HALT has ended, as Serac sees it. -/
def haltCore (s : State) (n : Nat) : State :=
  let t := haltDrained s n
  if running s n ∧ ¬ running t n then seeHalt t n else t

end Sys2Proof.Machine
end

