-- ==== Sys2Proof/Machine/Jobs.lean ====
section
/-! DEFINITION. Jobs and kernels (R225-R237, R256, R261, R263): context residency, kernel starts, the choice of what
runs next, deadlines, fall-backs and the ways a job ends. -/

namespace Sys2Proof.Machine

/-! ### Job records -/

def setJobs (s : State) (l : List Job) : State := { s with rime := { s.rime with jobs := l } }
def jobOf (s : State) (serial : Nat) : Option Job := s.rime.jobs.find? (fun j => j.serial == serial)
def updJob (s : State) (serial : Nat) (f : Job → Job) : State :=
  setJobs s (s.rime.jobs.map (fun j => if j.serial = serial then f j else j))

/-- Some cluster and its kernel belong to the job. -/
def JobPhase.holds : JobPhase → Bool
  | .waiting => false
  | .preempted => false
  | _ => true

/-- A kernel of the job runs or may run at once. -/
def JobPhase.runs : JobPhase → Bool
  | .running => true
  | .rerun => true
  | _ => false

/-- The dies of an image's home clusters. -/
def imgDies (i : Image) : List Nat := (i.home.map dieOfCluster).eraseDups

/-- The image a job runs. -/
def jobImg (s : State) (j : Job) : Option Image := imgOf s j.run

/-- Processor 0 and the die controllers of the image serve (R246). -/
def jobServed (s : State) (i : Image) : Bool := serving s 0 && (imgDies i).all (fun d => live s (4 + d))

/-! ### Clusters and cores (R202, R227, R229, R256) -/

/-- A cluster some job's kernel or context switch occupies. -/
def cluBusy (s : State) (c : Nat) : Bool :=
  s.rime.jobs.any (fun j => j.phase.holds && (match jobImg s j with
    | some i => i.home.contains c
    | none => false))

/-- No cluster channel is BUSY or ARMED (R202). -/
def chansIdle (s : State) (c : Nat) : Bool :=
  (List.range 16).all (fun ch => !chanBusy s (.cluster c ch) && !chanArmed s (.cluster c ch))

/-- The clusters of one image that some other job holds. -/
def homeFree (s : State) (i : Image) : Bool := i.home.all (fun c => !cluBusy s c)

/-- Every core, cluster and die of the image is in service and unparked, and no pair of it is retired (R263). -/
def imgUp (s : State) (i : Image) : Bool :=
  i.cores.all (fun n => (getCore s n).inService) &&
    i.home.all (fun c => cluUp s c) &&
    (!i.twin || i.cores.all (fun n => !rdb s Reg.SERAC_PAIR_RETIRED (n / 2)))

/-- A retired pair among the cores of a twinned image. -/
def pairGone (s : State) (i : Image) : Bool := i.twin && i.cores.any (fun n => rdb s Reg.SERAC_PAIR_RETIRED (n / 2))

/-- Firmware ends a kernel's use of its clusters: the cluster channels stop (R202). -/
def stopClusters (s : State) (i : Image) : State :=
  i.home.foldl (fun t c => forUpTo 16 (fun ch u => mvStopOp u (.cluster c ch)) t) s

/-! ### Contexts (R230, R231) -/

def codeIn (s : State) (n : Nat) : Word := Tab.get 0 s.rime.code n
def ctxIn (s : State) (k : Nat) : Word := Tab.get 0 s.rime.ctx k

/-- The stores an image's context lies in. -/
def ctxKeys (i : Image) : List Nat :=
  (if i.csBytes = 0 then [] else i.cores) ++ (if i.clBytes = 0 then [] else i.home.map (1024 + ·))

/-- Every instruction store of the image holds its code. -/
def codeResident (s : State) (i : Image) : Bool := i.cores.all (fun n => codeIn s n == i.id)

/-- The job's context stands in the stores, or it has none to bring back. -/
def ctxResident (s : State) (j : Job) (i : Image) : Bool :=
  !j.saved || (ctxKeys i).all (fun k => ctxIn s k == i.id && Tab.get 0 s.rime.lastJob k == j.serial)

/-- Nothing has to be brought in before the job's kernel starts. -/
def resident (s : State) (j : Job) (i : Image) : Bool :=
  codeResident s i && (ctxKeys i).all (fun k => ctxIn s k == i.id) && ctxResident s j i

/-- The image's code written into the instruction stores of its cores. -/
def loadCode (s : State) (i : Image) : State :=
  i.cores.foldl (fun t n =>
    { setWords t (instrStoreBase n) i.code with rime := { t.rime with code := Tab.set t.rime.code n i.id } }) s

/-- The label of an image's own transfers. -/
def imgLabel (i : Image) : Label := ⟨i.drift, i.owner⟩

/-- Words moved by cluster channels 0-3 of a cluster under the image's label. -/
def ctxMove (s : State) (c : Nat) (i : Image) (src dst n : Nat) : State :=
  let who := Requester.chan (.cluster c 0) false
  forUpTo (n / 8) (fun k t =>
    let (w, t) := busRead t who (src + 8 * k)
    busWrite t who (imgLabel i) (dst + 8 * k) w) s

/-- The save area of a home cluster: its core stores in core order, then its cluster store. -/
def ctxParts (i : Image) (c base : Nat) : List (Nat × Nat × Nat) :=
  let cores := i.cores.filter (fun n => clusterOf n == c)
  (List.range cores.length).filterMap (fun k => (cores[k]?).map (fun n =>
    (coreStoreBase n, base + k * i.csBytes, i.csBytes)))
    ++ [(clusterStoreBase c, base + cores.length * i.csBytes, i.clBytes)]

/-- The context of a job saved (R230). -/
def ctxSave (s : State) (j : Job) (i : Image) : State :=
  i.saves.foldl (fun t (c, base, size) =>
    let t := (ctxParts i c base).foldl (fun u (st, ar, n) => ctxMove u c i st ar n) t
    trace t (4 + dieOfCluster c) 0x04 j.serial (c % 4 + size * 256)) s

/-- The context of a job restored. -/
def ctxRestore (s : State) (j : Job) (i : Image) : State :=
  i.saves.foldl (fun t (c, base, size) =>
    let t := (ctxParts i c base).foldl (fun u (st, ar, n) => ctxMove u c i ar st n) t
    trace t (4 + dieOfCluster c) 0x05 j.serial (c % 4 + size * 256)) s

/-- The job's context now stands in its stores. -/
def ctxTaken (s : State) (j : Job) (i : Image) : State :=
  (ctxKeys i).foldl (fun t k =>
    { t with rime := { t.rime with
      ctx := Tab.set t.rime.ctx k i.id, lastJob := Tab.set t.rime.lastJob k j.serial } }) s

/-- Code loaded and context restored where they do not stand in the stores. -/
def bringIn (s : State) (j : Job) (i : Image) : State :=
  let s := if codeResident s i then s else loadCode s i
  if ctxResident s j i then s else ctxRestore s j i

/-! ### Kernel starts (R55, R191, R226, R256, Table 07.8) -/

/-- The position of a core among its image's cores of its cluster: its pair's in a twinned image (R226). -/
def corePosOf (i : Image) (n : Nat) : Nat :=
  let k := (i.cores.filter (fun m => clusterOf m == clusterOf n && m < n)).length
  if i.twin then k / 2 else k

/-- The word of S6. -/
def argWord6 (i : Image) (k n : Nat) : Nat :=
  let plc := (i.home.filter (fun c => c < clusterOf n)).length
  k + plc * 65536 + corePosOf i n * 1048576 + i.owner * 16777216

/-- A window of a region (Table 07.8). -/
def setWindow (s : State) (w0 w1 : Nat) (r : Option Region) : State :=
  match r with
  | none => wr (wr s w0 0) w1 0
  | some x => wrn (wrn s w0 (x.base + b2n x.wr * 2 ^ 48 + 2 ^ 49)) w1 x.size

/-- The drift class and instance written to a channel. -/
def setChanLabel (s : State) (c : ChanId) (l : Label) : State :=
  wrf (wrf s (Reg.MV_CTL c) 24 22 l.cls) (Reg.MV_CTL c) 29 25 l.inst

/-- One core made ready for a kernel: arguments, entry, budget, TWIN, semaphores, channel labels, windows. -/
def prepCore (s : State) (j : Job) (i : Image) (k : Kern) (n : Nat) : State :=
  let args := (List.range 5).map (fun a => (j.args.getD a 0).toNat) ++ [argWord6 i j.kernel n, j.serial, j.deadline]
  let s := forUpTo 8 (fun a t => wrn t (Reg.CORE_ARG n a) (args.getD a 0)) s
  let s := wr (wrn s (Reg.CORE_ENTRY n) k.entry) (Reg.CORE_BUDGET n) k.budget
  let s := wrb s (Reg.CORE_CTL n) 2 i.twin
  let s := forUpTo 64 (fun x t => wr t (Reg.CORE_SEM n x) 0) s
  let s := forUpTo 8 (fun ch t => setChanLabel t (.core n ch) ⟨k.drift, i.owner⟩) s
  let s := forUpTo 16 (fun r t => setWindow t (Reg.CORE_WINDOW n r 0) (Reg.CORE_WINDOW n r 1) i.regions[r]?) s
  updCore s n (fun c => { c with
    label := ⟨k.drift, i.owner⟩, formats := some i.formats, pos := corePosOf i n, job := some j.serial,
    haltAt := none })

/-- A cluster made ready for a kernel: the semaphores the code names, channel labels, windows. -/
def prepCluster (s : State) (i : Image) (k : Kern) (c : Nat) : State :=
  let s := i.sems.foldl (fun t x => wr t (Reg.CLU_SEM c x) 0) s
  let s := forUpTo 16 (fun ch t => setChanLabel t (.cluster c ch) ⟨k.drift, i.owner⟩) s
  forUpTo 16 (fun r t => setWindow t (Reg.CLU_WINDOW c r 0) (Reg.CLU_WINDOW c r 1) i.regions[r]?) s

/-- Every core and cluster of the job made ready. -/
def prepKernel (s : State) (j : Job) (i : Image) (k : Kern) : State :=
  let s := i.home.foldl (fun t c => prepCluster t i k c) s
  i.cores.foldl (fun t n => prepCore t j i k n) s

/-- The mask of an image's home clusters (Table 08.13). -/
def homeMask (i : Image) : Nat := sumBy (fun c => 2 ^ c) i.home

/-- The START of the job's kernel has been written: what firmware keeps of it. -/
def kernelStarted (s : State) (j : Job) (i : Image) (ph : JobPhase) : State :=
  let s := updJob s j.serial (fun j => { j with
    phase := ph, saved := false, started := some (j.started.getD (nowN s)) })
  trace (ctxTaken s j i) 0 0x02 j.serial (j.kernel % 65536 + homeMask i * 65536)

/-- The kernel the job stands at is started on all the image's cores. -/
def startKernel (s : State) (j : Job) (i : Image) (ph : JobPhase) : State :=
  match i.kernels[j.kernel]? with
  | none => s
  | some k =>
    let s := kernelStarted (prepKernel s j i k) j i ph
    i.cores.foldl startCore s

/-! ### Deadlines (R234, R235) -/

/-- The current CCLK divider of a die: f is 6 GHz over it (R15, R18). -/
def cdivAct (s : State) (d : Nat) : Nat := rdf s (Reg.DIE_CLK_STATUS d) 2 0

/-- The divider of an image's first home die. -/
def imgDiv (s : State) (i : Image) : Nat := cdivAct s (dieOfCluster (i.home.headD 0))

/-- t + W/f > D, in units of ns/6. -/
def tooLate (s : State) (i : Image) (t w d : Nat) : Bool := decide (6 * d < 6 * t + w * imgDiv s i)

/-- WCET_REM of a kernel. -/
def wcetRem (i : Image) (k : Nat) : Nat :=
  match i.kernels[k]? with
  | some x => x.wcetRem
  | none => 0

/-- The loaded fall-back of the image the job names. -/
def fallbackOf (s : State) (j : Job) : Option Image :=
  match imgOf s j.image with
  | some i => if i.fallback = 0 then none else imgOf s i.fallback
  | none => none

/-- The job still runs its primary. -/
def onPrimary (j : Job) : Bool := j.run == j.image

/-- The latest fall-back start L (R235). -/
def latestStart (s : State) (f : Image) (d : Nat) : Nat :=
  let tp := if f.safety then 20000 else 420000
  d - (f.wcet * imgDiv s f + 5) / 6 - tp

/-- The hub timer of a job armed at L. -/
def armTimer (s : State) (j : Job) : State :=
  updJob s j.serial (fun j => { j with
    fbAt := if onPrimary j ∧ j.deadline ≠ 0 then (fallbackOf s j).map (fun f => latestStart s f j.deadline) else none })

/-- Does a judgement point with `w` cycles to go switch the job? -/
def judged (s : State) (j : Job) (i : Image) (w : Nat) : Bool :=
  onPrimary j && j.deadline != 0 && (fallbackOf s j).isSome && tooLate s i (nowN s) w j.deadline

/-! ### Ends of a job (R232, R233, R236) -/

/-- The latest HALT of a kernel's cores. -/
def haltTime (s : State) (i : Image) : Nat :=
  i.cores.foldl (fun m n => match (getCore s n).haltAt with
    | some t => if m < t then t else m
    | none => m) 0

/-- Every core of the kernel has HALTED (R232). -/
def allHalted (s : State) (i : Image) : Bool :=
  i.cores.all (fun n => !running s n && (getCore s n).haltAt.isSome)

/-- The job's last kernel has run to its end: it completes by its own result (R237). -/
def lastHalted (s : State) (j : Job) : Bool :=
  match jobImg s j with
  | some i => j.phase.runs && decide (j.kernel + 1 = i.kernels.length) && allHalted s i
  | none => false

/-- The job's record ends with a completion; the JOB_CANCELs that wait for it end with it (R233). -/
def completeJob (s : State) (j : Job) (x : Comp) : State :=
  let s := setJobs s (s.rime.jobs.filter (fun k => k.serial != j.serial))
  let s := finish s j.pid x
  j.cancels.foldl (fun t c => done t c (if x.status = 0x04 then 0x00 else 0x0B)) s

/-- What the completion of a job returns: its release time, or the time its START was written (R359). -/
def jobResult (j : Job) : List Word :=
  [BitVec.ofNat 64 (if j.timed.isSome then j.started.getD j.release else j.release)]

/-- The running kernel of a job ended by ABORT on every core (R236, R70). -/
def endKernel (s : State) (j : Job) (status : Nat) : State :=
  match jobImg s j with
  | none => s
  | some i =>
    if j.phase.holds then
      let s := stopClusters (i.cores.foldl (fun t n =>
        if (getCore t n).job = some j.serial then coreAbort t n else t) s) i
      if j.phase.runs then trace s 0 0x03 j.serial (j.kernel % 65536 + status * 65536) else s
    else s

/-- A job ends where it stands. -/
def jobEnd (s : State) (j : Job) (status detail : Nat) (late : Bool) : State :=
  completeJob s j
    { status := status, detail := detail, kernel := if j.started.isSome then j.kernel else 0xFFFF, late := late,
      results := jobResult j }

/-- The job ends cancelled (R233). -/
def jobCancelled (s : State) (j : Job) : State := jobEnd s j 0x04 0 false

/-- The job has run to the end of its last kernel. -/
def jobOk (s : State) (j : Job) (i : Image) : State :=
  let late := j.deadline ≠ 0 ∧ j.deadline < haltTime s i
  if onPrimary j then jobEnd s j 0x00 0 (decide late) else jobEnd s j 0x03 j.reason (decide late)

/-- The job is switched to its fall-back (R236); a cancellation that takes effect here wins (R237). -/
def switchJob (s : State) (j : Job) (reason : Nat) : State :=
  match fallbackOf s j with
  | none => s
  | some f =>
    let s := endKernel s j (if j.cancelled then 4 else 3)
    if j.cancelled then jobCancelled s j
    else
      let s := updJob s j.serial (fun j => { j with
        run := f.id, kernel := 0, phase := .waiting, reason := reason, fbAt := none, saved := false,
        rerunPair := none })
      trace s 0 0x06 j.serial reason

/-- The job fails (R232). -/
def failJob (s : State) (j : Job) (detail : Nat) : State :=
  let s := endKernel s j 1
  if j.cancelled then jobCancelled s j else jobEnd s j 0x01 detail false

/-! ### The choice of what runs next (R228, R229, R236, R404) -/

/-- Has a Firn step of the image that was consumed before the job still to be committed (R149)? -/
def stepAhead (s : State) (j : Job) (i : Image) : Bool :=
  s.rime.pend.any (fun p => p.opcode == 0x40 && p.res.isNone && decide (p.id < j.pid) &&
    i.mis.contains (fld (p.words.getD 0 0) 15 0))

/-- Does an earlier JOB_RUN of the same pair still wait for its start (R228)? -/
def pairHolds (s : State) (j : Job) : Bool :=
  s.rime.pend.any (fun p => p.ent.fn == j.ent.fn && p.ent.prio == j.ent.prio && p.opcode == 0x01 && p.res.isNone &&
    decide (p.job < j.serial) && (match jobOf s p.job with
      | some k => k.started.isNone && onPrimary k
      | none => true))

/-- A time-triggered job whose first kernel is not yet released. -/
def timedWait (j : Job) : Bool := j.timed.isSome && !j.missed && j.started.isNone && onPrimary j

/-- Does the job take part in the choice? -/
def eligible (s : State) (j : Job) : Bool :=
  match jobImg s j with
  | none => false
  | some i =>
    (j.phase == .waiting || j.phase == .preempted) && jobServed s i && imgUp s i && !stepAhead s j i &&
      (j.started.isSome || !onPrimary j || !pairHolds s j) &&
      (!timedWait j || decide ((j.timed.getD 0).toNat < nowN s + 1000000000)) &&
      (i.safety || !s.power.emergHold)

/-- The order of the choice: priority, a fall-back ahead of its priority, context resident, deadline, consumption. -/
def jobKey (s : State) (j : Job) : List Nat :=
  let r := match jobImg s j with
    | some i => b2n (!resident s j i)
    | none => 1
  [j.ent.prio, b2n (onPrimary j), r, if j.deadline = 0 then 2 ^ 64 else j.deadline, j.serial]

def keyLt : List Nat → List Nat → Bool
  | a :: as, b :: bs => decide (a < b) || (a == b && keyLt as bs)
  | _, _ => false

def insertJob (s : State) (j : Job) : List Job → List Job
  | [] => [j]
  | k :: ks => if keyLt (jobKey s j) (jobKey s k) then j :: k :: ks else k :: insertJob s j ks

/-- The jobs of the choice in its order. -/
def candidates (s : State) : List Job := (s.rime.jobs.filter (eligible s)).foldl (fun l j => insertJob s j l) []

/-- A job takes its free clusters: it starts at once, or switches context first. Kernel 0's start is a judgement
point (Table 08.10); a job that has run too long goes to its fall-back instead. -/
def takeClusters (s : State) (j : Job) (i : Image) : State :=
  if judged s j i (wcetRem i j.kernel) then switchJob s j 1
  else if resident s j i ∧ i.home.all (chansIdle s) then startKernel s j i .running
  else updJob s j.serial (fun j => { j with phase := .switching })

/-- One round of the choice: in order, each job whose home clusters are free and not kept for an earlier one takes
them; the clusters of a job that cannot are kept for it. -/
def scheduleOnce (s : State) : State :=
  ((candidates s).foldl (fun (acc : State × List Nat) j0 =>
    let (t, kept) := acc
    match jobOf t j0.serial with
    | none => acc
    | some j => match jobImg t j with
      | none => acc
      | some i =>
        if eligible t j then
          if homeFree t i ∧ ¬ i.home.any kept.contains ∧ ¬ timedWait j then (takeClusters t j i, kept)
          else (t, kept ++ i.home)
        else acc) (s, [])).1

/-- Firmware's choice on the clusters that are free; a second round serves the fall-backs the first one made. -/
def schedule (s : State) : State := if serving s 0 then scheduleOnce (scheduleOnce s) else s

/-- A waiting job of strictly higher priority needs a cluster of the image (R229). -/
def outranked (s : State) (j : Job) (i : Image) : Bool :=
  !i.safety && s.rime.jobs.any (fun k => decide (k.ent.prio < j.ent.prio) && eligible s k && (match jobImg s k with
    | some x => x.home.any i.home.contains
    | none => false))

/-- The job goes on with its next kernel, or gives way at this boundary (R229, R230). -/
def nextKernel (s : State) (j : Job) (i : Image) : State :=
  if judged s j i (wcetRem i j.kernel) then switchJob s j 1
  else if outranked s j i ∨ (s.power.emergHold ∧ ¬ i.safety) then
    let kept := (match i.kernels[j.kernel - 1]? with
      | some k => k.live
      | none => false) && !i.saves.isEmpty
    let s := if kept then ctxSave s j i else s
    updJob s j.serial (fun j => { j with phase := .preempted, saved := kept })
  else if i.home.all (chansIdle s) then startKernel s j i .running
  else updJob s j.serial (fun j => { j with phase := .switching })

/-- A kernel's end (R232): its channels stop, and the job ends or goes on. -/
def kernelEnd (s : State) (j : Job) (i : Image) : State :=
  let s := stopClusters s i
  let s := if j.phase = .rerun then incSat s Reg.SERAC_TWIN_TRANSIENT 32 1 else s
  let s := trace s 0 0x03 j.serial (j.kernel % 65536)
  if j.kernel + 1 < i.kernels.length then
    if j.cancelled then jobCancelled s j
    else
      let j' := { j with kernel := j.kernel + 1, phase := .preempted, rerunPair := none }
      nextKernel (updJob s j.serial (fun _ => j')) j' i
  else if j.cancelled then jobCancelled s j
  else jobOk s j i

/-! ### Judgement at a mode change (R235) -/

/-- The smallest CORE_CYCLES among a kernel's cores. -/
def minCycles (s : State) (i : Image) : Nat := ((i.cores.map (fun n => rdn s (Reg.CORE_CYCLES n))).min?).getD 0

/-- The timers rearmed and every job judged at a mode change. -/
def modeJudge (s : State) : State :=
  if serving s 0 then
    let s := s.rime.jobs.foldl (fun t j => armTimer t j) s
    let s := s.rime.jobs.foldl (fun t j =>
      match jobImg t j with
      | none => t
      | some i =>
        let w := wcetRem i j.kernel - (if j.phase.runs then minCycles t i else 0)
        if judged t j i w ∧ ¬ lastHalted t j then switchJob t j 1 else t) s
    schedule s
  else s

/-! ### The commands -/

/-- JOB_RUN (R228, R234, R359): the job of a consumed entry is released or waits. A job whose twin pair has retired
runs its fall-back from its release (R263). -/
def jobRun (s : State) (e : Ent) (timed : Bool) (image start : Word) (args : List Word) : State :=
  match takePend s e 0x01 (image :: start :: args), imgOf s image with
  | some p, some i =>
    if p.timed = timed ∧ serving s 0 then
      let s := begun s p.id
      let r := if timed then start.toNat else p.time
      let j : Job :=
        { serial := p.job, pid := p.id, ent := e, image := image, run := image, args := args, release := r,
          deadline := if i.deadline = 0 then 0 else r + i.deadline, timed := if timed then some start else none,
          missed := false, started := none, kernel := 0, phase := .waiting, reason := 0, cancels := [],
          cancelled := false, fbAt := none, rerunPair := none, hadMismatch := false, saved := false }
      let s := armTimer (setJobs s (s.rime.jobs ++ [j])) j
      let s :=
        if pairGone s i then switchJob s j 2
        else if ¬ timed ∧ judged s j i (wcetRem i 0) then switchJob s j 1
        else s
      schedule s
    else s
  | _, _ => s

def execJobRun (e : Ent) (timed : Bool) (image start : Word) (args : List Word) (s : State) : Result :=
  .next (jobRun s e timed image start args)

/-- The oldest JOB_RUN in flight that a JOB_CANCEL names. -/
def cancelTarget (s : State) (e : Ent) (w0 : Word) : Option Pend :=
  s.rime.pend.find? (fun p => p.opcode == 0x01 && p.res.isNone && p.ent.fn == e.fn &&
    p.ent.prio == fld w0 33 32 && p.ent.tag.toNat == fld w0 31 0)

/-- A job is to be cancelled: removed at once while no kernel of it runs, else at its next boundary (R233). -/
def cancelJob (s : State) (p : Pend) (by_ : Option Nat) : State :=
  match jobOf s p.job with
  | none =>
    let s := finish s p.id { status := 0x04 }
    (match by_ with
      | some c => done s c 0x00
      | none => s)
  | some j =>
    let j' := { j with cancels := j.cancels ++ by_.toList, cancelled := true }
    let s := updJob s j.serial (fun _ => j')
    if j.phase = .waiting ∨ j.phase = .preempted ∨ j.phase = .switching then schedule (jobCancelled s j') else s

/-- JOB_CANCEL (R233). -/
def jobCancel (s : State) (e : Ent) (w0 : Word) : State :=
  match takePend s e 0x02 [w0] with
  | none => s
  | some p =>
    if serving s 0 then
      match cancelTarget s e w0 with
      | none => done s p.id 0x0B
      | some t =>
        let safe : Bool := match imgOf s (t.words.getD 0 0) with
          | some i => i.safety
          | none => false
        if safe ∧ e.fn ≠ 16 then done s p.id 0x09
        else cancelJob (begun s p.id) t (some p.id)
    else s

def execJobCancel (e : Ent) (w0 : Word) (s : State) : Result := .next (jobCancel s e w0)

/-- KERNEL_END (R232). -/
def execKernelEnd (job : Nat) (s : State) : Result :=
  .next (match jobOf s job with
    | none => s
    | some j => match jobImg s j with
      | none => s
      | some i => if j.phase.runs ∧ allHalted s i ∧ jobServed s i then schedule (kernelEnd s j i) else s)

/-- CONTEXT_SWITCH_DONE (R230): code and context are in place, and the waiting kernel starts. -/
def execContextSwitchDone (job : Nat) (s : State) : Result :=
  .next (match jobOf s job with
    | none => s
    | some j => match jobImg s j with
      | none => s
      | some i =>
        if j.phase = .switching ∧ i.home.all (chansIdle s) ∧ jobServed s i then
          startKernel (bringIn s j i) j i .running
        else s)

/-- FALLBACK_TIMER (R235, R237). -/
def execFallbackTimer (job : Nat) (s : State) : Result :=
  .next (match jobOf s job with
    | none => s
    | some j => match j.fbAt with
      | some l => if l ≤ nowN s ∧ onPrimary j ∧ serving s 0 ∧ ¬ lastHalted s j then schedule (switchJob s j 1) else s
      | none => s)

/-! ### Cores (R38, R65, R68, R70) -/

/-- What firmware does of a budget expiry (R232, R235, R236): a switch with reason 4, or OVERRUN. -/
def overrunJob (s : State) (n : Nat) : State :=
  match jobOn s n with
  | none => s
  | some j => match jobImg s j with
    | none => s
    | some i =>
      if j.phase.runs ∧ jobServed s i then
        if j.cancelled then schedule (jobCancelled (endKernel s j 4) j)
        else if onPrimary j ∧ (fallbackOf s j).isSome then schedule (switchJob s j 4)
        else schedule (jobEnd (endKernel s j 2) j 0x02 0 (decide (j.deadline ≠ 0 ∧ j.deadline < nowN s)))
      else s

/-- CORE_START (R38): START written by the die controller, a kernel queue or debug. -/
def execCoreStart (core : Nat) (s : State) : Result := .next (startCore s core)

/-- CORE_ABORT (R70). -/
def execCoreAbort (core : Nat) (s : State) : Result := .next (coreAbort s core)

/-- HALT_DRAINED (R68). -/
def execHaltDrained (core : Nat) (s : State) : Result := .next (haltCore s core)

/-- CORE_BUDGET_EXPIRY (R65). -/
def execCoreBudgetExpiry (core : Nat) (s : State) : Result :=
  .next (let t := budgetExpire s core
    if running s core ∧ ¬ running t core then overrunJob t core else t)

end Sys2Proof.Machine
end

