-- ==== Sys2Proof/Machine/FirnCmds.lean ====
section
/-! DEFINITION. The commands of the page authority (R146-R160, R305): steps, boundaries, commits, the exchange between
devices, releases, the prefix tree and queries. -/

namespace Sys2Proof.Machine

/-! ### Commands of a ring (R146) -/

def miOf (s : State) (mi : Nat) : Option MiDecl := Tab.find s.firn.mis mi

/-- The four words a FIRN_QUERY returns (Table 05.6). -/
def seqWords (e : SeqEnt) : List Word :=
  [ BitVec.ofNat 64 (e.state + e.owner * 8 + e.mi * 2 ^ 16 + e.len * 2 ^ 32),
    BitVec.ofNat 64 (e.kvh + e.pcap * 2 ^ 8 + e.donor * 2 ^ 24 + b2n e.donorEn * 2 ^ 40),
    BitVec.ofNat 64 e.plist,
    BitVec.ofNat 64 e.stepLast ]

/-- The page authority serves: the device has started, and ENABLE is set. -/
def firnOn (s : State) : Bool := rdb s Reg.FIRN_CTL 0

/-- FIRN_STEP (R146, R149): the step waits for the next boundary of its model instance. -/
def execFirnStep (e : Ent) (mi : Nat) (addr : Nat) (s : State) : Result :=
  .next (match takePend s e 0x40 [BitVec.ofNat 64 mi, BitVec.ofNat 64 addr] with
    | none => s
    | some p =>
      if serving s 0 then
        let s := begun s p.id
        { s with firn := { s.firn with queue := s.firn.queue ++ [⟨p.id, mi, addr, p.id⟩] } }
      else s)

/-- A sequence of the table marked RELEASING (R160). -/
def markRelease (t : FirnTabs) (q : Nat) : FirnTabs :=
  match Tab.find t.seqs q with
  | some e => if e.state = 0 then t else { t with seqs := Tab.set t.seqs q { e with state := 4 } }
  | none => t

/-- A change made outside the boundary in progress: the tables and the journal both take it, so an undo keeps it. -/
def bothTabs (s : State) (f : FirnTabs → FirnTabs) : State :=
  updBusy (setTabs s (f s.firn.tabs)) (fun b => { b with journal := f b.journal })

/-- SEQ_RELEASE (R151, R160). -/
def execSeqRelease (e : Ent) (seq : Nat) (s : State) : Result :=
  .next (match takePend s e 0x41 [BitVec.ofNat 64 seq] with
    | none => s
    | some p => if serving s 0 then done (bothTabs s (markRelease · seq)) p.id 0x00 else s)

/-- The hash chain of a command, up to the first poisoned word. -/
def chainAt (s : State) (lab : Label) (addr count : Nat) : List Word × State :=
  let (ws, s) := busReadWords count s .firn lab addr
  ((ws.takeWhile (fun w => !w.p)).map (·.v), s)

/-- PREFIX_LOOKUP (R159). -/
def execPrefixLookup (e : Ent) (mi addr count : Nat) (s : State) : Result :=
  .next (match takePend s e 0x42 [BitVec.ofNat 64 mi, BitVec.ofNat 64 addr, BitVec.ofNat 64 count] with
    | none => s
    | some p =>
      if serving s 0 then
        let (hs, s) := chainAt s (fnLabel e.fn) addr count
        let (d, i) := if rdb s Reg.FIRN_CTL 1 then treeMatch s hs none 0 else (0, none)
        let donor := match i.bind (Tab.find s.firn.tabs.tree) with
          | some t => t.donor
          | none => 0
        doneR s p.id 0x00 [BitVec.ofNat 64 d, BitVec.ofNat 64 donor, BitVec.ofNat 64 (128 * d)]
      else s)

/-- The tree after a chain has been inserted, and whether it met a full set. -/
def insertTabs (s : State) (q : Nat) (hs : List Word) (t : FirnTabs) : FirnTabs × Bool :=
  let r := treeInsert q hs (setTabs s t) none 0
  (r.1.firn.tabs, r.2)

/-- PREFIX_INSERT (R159). -/
def execPrefixInsert (e : Ent) (seq addr count : Nat) (s : State) : Result :=
  .next (match takePend s e 0x43 [BitVec.ofNat 64 seq, BitVec.ofNat 64 addr, BitVec.ofNat 64 count] with
    | none => s
    | some p =>
      if serving s 0 then
        if rdb s Reg.FIRN_CTL 1 then
          let (hs, s) := chainAt s (fnLabel e.fn) addr count
          let full := (insertTabs s seq hs s.firn.tabs).2
          let s := bothTabs s (fun t => (insertTabs s seq hs t).1)
          if full then doneD (hwSetBit s Reg.FIRN_STATUS Reg.FIRN_EVCNT 4) p.id 0x00 0x20
          else doneD s p.id 0x00 0x00
        else doneD s p.id 0x00 0x21
      else s)

/-- FIRN_QUERY (R146). -/
def execFirnQuery (e : Ent) (seq : Nat) (s : State) : Result :=
  .next (match takePend s e 0x44 [BitVec.ofNat 64 seq] with
    | none => s
    | some p => if serving s 0 then doneR s p.id 0x00 (seqWords (seqOf s seq)) else s)

/-! ### Boundaries (R149, R150, R154-R157) -/

/-- Has every job of the model instance that was consumed before the step ended? -/
def stepReady (s : State) (c : StepCmd) : Bool :=
  !s.rime.pend.any (fun p => p.opcode == 0x01 && p.res.isNone && decide (p.id < c.stamp) &&
    (match s.rime.images.find? (fun i => i.id == p.words.getD 0 0) with
      | some i => i.mis.contains c.mi
      | none => false))

/-- The step whose boundary may be taken next for a model instance: the first of its own, no ready one before it. -/
def nextStep (s : State) (mi : Nat) : Option StepCmd :=
  match s.firn.queue.find? (stepReady s) with
  | some c => if c.mi = mi then some c else none
  | none => none

/-- A step leaves the queue. -/
def dropStep (s : State) (c : StepCmd) : State :=
  { s with firn := { s.firn with queue := s.firn.queue.filter (fun x => x.pid != c.pid) } }

/-- A refused descriptor (R147, R148, R157): its status in the first word of the results and in DETAIL. -/
def refuseStep (s : State) (c : StepCmd) (m : MiDecl) (h : List PWord) (st : Nat) : State :=
  let w1 := h.getD 1 ⟨0, true⟩
  let s := if w1.p then s
    else busWriteBytes .firn (firnLabel m) 2 s (fld w1.v 47 0) ((bytesLE 4 st).map (fun b => (b, false)))
  schedule (doneD (dropStep s c) c.pid 0x00 st)

/-- FIRN_BOUNDARY (R149): the next step's descriptor is read and judged, and its boundary begins. -/
def firnBoundary (s : State) (mi : Nat) : State :=
  match s.firn.busy, nextStep s mi, miOf s mi with
  | none, some c, some m =>
    if firnOn s ∧ serving s 0 ∧ (m.localCount = m.shards ∨ live s 2) then
      let (h, s) := busReadWords 8 s .firn (firnLabel m) c.addr
      let n := fld (h.getD 0 ⟨0, true⟩).v 28 16
      let (es, s) := if n ≤ 4096 then busReadWords (4 * n) s .firn (firnLabel m) (c.addr + 64) else ([], s)
      match stepRefusal mi h es with
      | some st => refuseStep s c m h st
      | none => boundaryBegin s c m h es
    else s
  | _, _, _ => s

def execFirnBoundary (mi : Nat) (s : State) : Result := .next (firnBoundary s mi)

/-- FIRN_COMMIT (R154): the boundary commits whole; the kernels of its step may start. -/
def firnCommit (s : State) (mi : Nat) (copyUc : List Nat) : State :=
  match s.firn.busy, miOf s mi with
  | some b, some m =>
    if b.cmd.mi = mi ∧ b.agreed = 2 then
      let s := dropStep (boundaryCommit s mi m copyUc) b.cmd
      let s := trace s 0 0x07 mi (Tab.get 0 s.firn.steps mi)
      schedule (doneD s b.cmd.pid 0x00 0x00)
    else s
  | _, _ => s

def execFirnCommit (mi : Nat) (copyUc : List Nat) (s : State) : Result := .next (firnCommit s mi copyUc)

/-- A join of the boundary that another device does not grant goes back to PENDING. -/
def deferJoin (s : State) (q : Nat) : State :=
  match s.firn.busy with
  | none => s
  | some b =>
    if b.results.any (fun r => r.seq == q && r.join && r.status == 0) then
      let s := setSeq (releaseSeq s q) q (Tab.get {} b.journal.seqs q)
      updBusy s (fun b => { b with results := b.results.map (fun r =>
        if r.seq = q ∧ r.join ∧ r.status = 0 then { r with status := 0x01 } else r) })
    else s

/-- A continuing entry of the boundary that another device does not grant is undone. -/
def stallEntry (s : State) (mi : Nat) (m : MiDecl) (q : Nat) : State :=
  match s.firn.busy with
  | none => s
  | some b => match b.results.find? (fun r => r.seq == q && !r.join && r.status == 0) with
    | none => s
    | some r => updBusy (undoCont s mi m q r.g) (fun b => { b with results := b.results.map (fun r =>
        if r.seq = q ∧ r.join = false ∧ r.status = 0 then { r with status := 0x02 } else r) })

/-- FIRN_GATHER (R156): the outcomes of every device for phase 2, and then for phase 3. -/
def firnGather (s : State) (mi : Nat) (notOk : List Nat) : State :=
  match s.firn.busy, miOf s mi with
  | some b, some m =>
    if b.cmd.mi = mi ∧ live s 2 then
      if b.agreed = 0 then
        updBusy (phase3 (notOk.foldl (fun t q => stallEntry t mi m q) s) mi m) (fun b => { b with agreed := 1 })
      else if b.agreed = 1 then updBusy (notOk.foldl deferJoin s) (fun b => { b with agreed := 2 })
      else s
    else s
  | _, _ => s

def execFirnGather (mi : Nat) (notOk : List Nat) (s : State) : Result := .next (firnGather s mi notOk)

/-- FIRN_GATHER_TIMEOUT (R305): the boundary is undone, and its step stays queued. -/
def firnGatherTimeout (s : State) (mi : Nat) : State :=
  match s.firn.busy with
  | none => s
  | some b =>
    if b.cmd.mi = mi ∧ b.agreed < 2 then
      let s := dropStep (boundaryUndo s) b.cmd
      { s with firn := { s.firn with queue := s.firn.queue ++ [b.cmd] } }
    else s

def execFirnGatherTimeout (mi : Nat) (s : State) : Result := .next (firnGatherTimeout s mi)

end Sys2Proof.Machine
end

