-- ==== Sys2Proof/Machine/Loader.lean ====
section
/-! DEFINITION. MODEL_LOAD and MODEL_UNLOAD: the image as it is read (R71, R225, R436, R437, R340), the load checks in
their order (R72, Table 02.14), the placement they judge (R227, R139, R140, R439), what a load grants and what an
unload gives back (R207, R231). -/

namespace Sys2Proof.Machine

/-! ### Reading an image (R71, R225, R340, R436, R437) -/

/-- The parts of an image read from memory, each byte with its poison. -/
structure RawImage where
  len : Nat
  hdr : List (Byte × Bool)
  ktab : List (Byte × Bool)
  dtab : List (Byte × Bool)
  ftab : List (Byte × Bool)
  code : List (Byte × Bool)
  wts : List (Byte × Bool)

/-- A little-endian field of a part. -/
def fieldAt (bs : List (Byte × Bool)) (off n : Nat) : Nat := ofBytesLE (((bs.drop off).take n).map (·.1))

/-- A field of the image header (Table 02.13). -/
def RawImage.h (r : RawImage) (off n : Nat) : Nat := fieldAt r.hdr off n

/-- Bytes of an image, none where they do not lie inside it. -/
def imgBytes (s : State) (lab : Label) (addr len off n : Nat) : List (Byte × Bool) × State :=
  if off + n ≤ len then busReadBytes s (fwWho 3) lab (addr + off) n else ([], s)

/-- A table of a 16-byte header with a count of `bits` bits and 32-byte entries. -/
def imgTable (s : State) (lab : Label) (addr len off bits : Nat) : List (Byte × Bool) × State :=
  if off = 0 then ([], s)
  else
    let (h, s) := imgBytes s lab addr len off 16
    imgBytes s lab addr len off (16 + fieldAt h 0 4 % 2 ^ bits * 32)

/-- Everything the checks read. -/
def readImage (s : State) (lab : Label) (addr len : Nat) : RawImage × State :=
  let (hdr, s) := imgBytes s lab addr len 0 128
  let f (off n : Nat) : Nat := fieldAt hdr off n
  let (k, s) := imgTable s lab addr len (f 0x58 4) 11
  let (d, s) := imgTable s lab addr len (f 0x50 4) 5
  let (p, s) := imgTable s lab addr len (f 0x54 4) 9
  let (c, s) := imgBytes s lab addr len (f 0x5C 4) (if f 0x2C 4 ≤ 65536 then f 0x2C 4 else 0)
  let (w, s) :=
    if f 0x60 4 = 0 then ([], s)
    else
      let (wh, s) := imgBytes s lab addr len (f 0x60 4) 128
      imgBytes s lab addr len (f 0x60 4) (128 + fieldAt wh 6 2 % 128 * 64)
  (⟨len, hdr, k, d, p, c, w⟩, s)

/-! ### The tables -/

def RawImage.id (r : RawImage) : Word := BitVec.ofNat 64 (r.h 0x10 8)
def RawImage.fallback (r : RawImage) : Word := BitVec.ofNat 64 (r.h 0x18 8)
def RawImage.twin (r : RawImage) : Bool := r.h 0x24 1 % 2 == 1
def RawImage.safety (r : RawImage) : Bool := r.h 0x24 1 / 2 % 2 == 1
def RawImage.cpc (r : RawImage) : Nat := r.h 0x25 1
def RawImage.clusters (r : RawImage) : Nat := r.h 0x26 1
def RawImage.drift (r : RawImage) : Nat := r.h 0x27 1
def RawImage.csBytes (r : RawImage) : Nat := r.h 0x28 4
def RawImage.instrBytes (r : RawImage) : Nat := r.h 0x2C 4
def RawImage.clBytes (r : RawImage) : Nat := r.h 0x30 4
def RawImage.bundles (r : RawImage) : Nat := r.instrBytes / 32
def RawImage.weights (r : RawImage) : Nat := r.h 0x60 4
def RawImage.deadline (r : RawImage) : Nat := r.h 0x38 8
def RawImage.wcet (r : RawImage) : Nat := r.h 0x40 8
def RawImage.kcount (r : RawImage) : Nat := fieldAt r.ktab 0 2 % 2048
def RawImage.rcount (r : RawImage) : Nat := fieldAt r.dtab 0 1 % 32
def RawImage.mcount (r : RawImage) : Nat := fieldAt r.ftab 0 2 % 512
def RawImage.plainBytes (r : RawImage) : Nat := fieldAt r.wts 0x10 8

/-- Word `k` of entry `i` of a table, k in 0-3. -/
def entryWord (bs : List (Byte × Bool)) (i k : Nat) : Word := BitVec.ofNat 64 (fieldAt bs (16 + i * 32 + k * 8) 8)

/-- The kernel table (Table 08.9). -/
def RawImage.kernels (r : RawImage) : List Kern :=
  (List.range r.kcount).map (fun i =>
    let w := entryWord r.ktab i 0
    ⟨fld w 10 0, fld w 18 16, bit w 19, entryWord r.ktab i 1, (entryWord r.ktab i 2).toNat⟩)

/-- A declared region (Table 02.15): size, WR, WEIGHTS, INIT offset and bytes. -/
structure RegDecl where
  size : Nat
  wr : Bool
  weights : Bool
  initOff : Nat
  initBytes : Nat

def RawImage.regions (r : RawImage) : List RegDecl :=
  (List.range r.rcount).map (fun i =>
    let f := entryWord r.dtab i 1
    let n := entryWord r.dtab i 2
    ⟨fld (entryWord r.dtab i 0) 39 0, bit f 0, bit f 1, fld n 31 0, if bit f 2 then fld n 63 32 else 0⟩)

/-- The model instances (Table 02.16), without owner and dies. -/
def RawImage.mis (r : RawImage) : List (Nat × MiDecl) :=
  (List.range r.mcount).map (fun i =>
    let w := entryWord r.ftab i 0
    let l := entryWord r.ftab i 2
    (fld w 15 0,
     { image := r.id, owner := 31, cls := fld w 19 16, heads := fld w 35 20, byPos := bit w 36, shards := fld w 42 37,
       reserve := fld (entryWord r.ftab i 1) 23 0, localFirst := fld l 5 0, localCount := fld l 13 8, dies := [],
       drift := r.drift }))

/-- Slot `k` (C, M, V, X) of bundle `i`. -/
def RawImage.slot (r : RawImage) (i k : Nat) : Word := BitVec.ofNat 64 (fieldAt r.code (i * 32 + k * 8) 8)

/-! ### Checks 1 to 6 (Table 02.14) -/

/-- A table lies inside the image and was read whole. -/
def tableIn (bs : List (Byte × Bool)) (bits : Nat) : Bool :=
  decide (16 ≤ bs.length) && decide (bs.length = 16 + fieldAt bs 0 4 % 2 ^ bits * 32)

/-- Is a region entry in range (R436)? -/
def regionOk (r : RawImage) (i : Nat) : Bool :=
  let w0 := entryWord r.dtab i 0
  let f := entryWord r.dtab i 1
  let n := entryWord r.dtab i 2
  let size := fld w0 39 0
  decide (fld w0 63 40 = 0) && decide (fld f 63 3 = 0) && entryWord r.dtab i 3 == 0 &&
    decide (size ≠ 0) && decide (size % 4096 = 0) &&
    decide (fld n 63 32 % 8 = 0) && decide (fld n 63 32 ≤ size) && decide (fld n 31 0 + fld n 63 32 ≤ r.len) &&
    (!bit f 1 || decide (r.plainBytes ≤ size))

/-- Is a model-instance entry in range (R437)? -/
def miOk (r : RawImage) (i : Nat) : Bool :=
  let w := entryWord r.ftab i 0
  let v := entryWord r.ftab i 1
  let l := entryWord r.ftab i 2
  decide (fld w 63 43 = 0) && decide (fld v 63 24 = 0) && decide (fld l 7 6 = 0) && decide (fld l 63 14 = 0) &&
    entryWord r.ftab i 3 == 0 && decide (1 ≤ fld w 35 20) && decide (1 ≤ fld w 42 37) && decide (fld w 42 37 ≤ 32) &&
    decide (fld l 5 0 ≤ 31) && decide (1 ≤ fld l 13 8) && decide (fld l 13 8 ≤ 32) &&
    decide (fld l 5 0 + fld l 13 8 ≤ fld w 42 37)

/-- Check 1: LOAD_REFUSED_IMAGE (R71, R225, R436, R437). The format's minor version the firmware supports is 0 (log
entry 23). -/
def check1 (s : State) (r : RawImage) : Bool :=
  let inside (off : Nat) : Bool := decide (off < r.len)
  decide (128 ≤ r.len) && decide (r.hdr.length = 128)
    && !(r.hdr ++ r.ktab ++ r.dtab ++ r.ftab ++ r.code ++ r.wts).any (·.2)
    && r.h 0 4 == 0x51535445 && r.h 4 2 == 1 && r.h 6 2 == 0
    && inside (r.h 0x58 4) && inside (r.h 0x5C 4) && inside (r.h 0x50 4) && inside (r.h 0x54 4) && inside r.weights
    && decide (r.h 0x5C 4 + r.instrBytes ≤ r.len)
    && decide (r.id ≠ 0) && !s.rime.images.any (fun i => i.id == r.id)
    && decide (r.h 0x0C 4 / 256 = 0) && decide (r.h 0x24 1 / 4 = 0)
    && decide (1 ≤ r.cpc) && decide (r.cpc ≤ 8) && (!r.twin || r.cpc % 2 == 0)
    && decide (1 ≤ r.clusters) && decide (r.clusters ≤ 16) && decide (r.drift ≤ 7)
    && decide (r.instrBytes ≠ 0) && decide (r.instrBytes % 32 = 0)
    && decide (r.h 0x64 28 = 0)
    && tableIn r.ktab 11 && decide (fieldAt r.ktab 0 16 = r.kcount) && decide (1 ≤ r.kcount) && decide (r.kcount ≤ 1024)
    && (r.h 0x50 4 == 0 || (tableIn r.dtab 5 && decide (fieldAt r.dtab 0 16 = r.rcount) && decide (r.rcount ≤ 16)
      && (List.range r.rcount).all (regionOk r)))
    && (r.h 0x54 4 == 0 || (tableIn r.ftab 9 && decide (fieldAt r.ftab 0 16 = r.mcount) && decide (1 ≤ r.mcount)
      && decide (r.mcount ≤ 256) && (List.range r.mcount).all (miOk r)))
    && decide ((r.regions.filter (·.weights)).length = (if r.weights = 0 then 0 else 1))

/-- Check 2: LOAD_REFUSED_PART. -/
def check2 (s : State) (r : RawImage) : Bool :=
  let st := rdn s Reg.HUB_STEPPING
  r.h 0x08 4 == rdn s Reg.HUB_PART_ID && r.h 0x0C 4 / 16 % 16 == st / 16 % 16 && decide (r.h 0x0C 4 % 16 ≤ st % 16)

/-- The device identity, HUB_UID_HI:HUB_UID_LO. -/
def deviceUid (s : State) : Nat := rdf s Reg.HUB_UID_HI 31 0 * 2 ^ 32 + rdf s Reg.HUB_UID_LO 31 0

/-- The content key of a weight section, by the first binding entry that names the device (R340, R341). -/
def weightKeyOf (s : State) (r : RawImage) : Option (BitVec 256) :=
  match (List.range (fieldAt r.wts 6 2)).find? (fun i => fieldAt r.wts (0x80 + i * 64) 8 == deviceUid s) with
  | none => none
  | some i =>
    Config.weightKey (deviceUid s) (((r.wts.drop 0x20).take 96).map (·.1))
      (((r.wts.drop (0x88 + i * 64)).take 40).map (·.1))

/-- Where chunk `c` lies in the section, and its length. -/
def chunkOff (r : RawImage) (c : Nat) : Nat := r.weights + 0x80 + fieldAt r.wts 6 2 * 64 + c * 1048592
def chunkLen (bytes c : Nat) : Nat := if (c + 1) * 1048576 ≤ bytes then 1048576 else bytes - c * 1048576

/-- Every chunk's tag verifies over its ciphertext. -/
def chunksOk (s : State) (r : RawImage) (lab : Label) (addr : Nat) (key : BitVec 256) : Bool :=
  (List.range (ceilDiv r.plainBytes 1048576)).all (fun c =>
    let n := chunkLen r.plainBytes c
    let body := (imgBytes s lab addr r.len (chunkOff r c) (n + 16)).1
    decide (body.length = n + 16) && !body.any (·.2) &&
      Config.weightTag key (fieldAt r.wts 0x1C 4) c ((r.wts.take 128).map (·.1)) ((body.take n).map (·.1))
        == (body.drop n).map (·.1))

/-- Check 3: LOAD_REFUSED_BINDING (R341). -/
def check3 (s : State) (r : RawImage) (lab : Label) (addr : Nat) : Bool :=
  decide (rdf s Reg.SEC_TENANT 1 0 = 1) &&
    (r.weights == 0 ||
      (fieldAt r.wts 0 4 == 0x57424E44 && fieldAt r.wts 4 2 == 1 && decide (1 ≤ fieldAt r.wts 6 2) &&
        decide (fieldAt r.wts 6 2 ≤ 64) &&
        decide (fieldAt r.wts 0x18 4 = ceilDiv r.plainBytes 1048576) &&
        decide (0x80 + fieldAt r.wts 6 2 * 64 + r.plainBytes + fieldAt r.wts 0x18 4 * 16 ≤ r.len - r.weights) &&
        (fieldAt r.wts 8 8 == 0 || fieldAt r.wts 8 8 == rdn s Reg.SEC_TENANT_ID) &&
        (match weightKeyOf s r with
          | some k => chunksOk s r lab addr k
          | none => false)))

/-- Check 4: LOAD_REFUSED_FEATURE (R438). -/
def check4 (r : RawImage) : Bool := decide (r.h 0x48 8 < 256)

/-- The kernel's bundles a bundle belongs to: from the nearest ENTRY at or below it to the next one. -/
def kernelSpan (entries : List Nat) (n i : Nat) : Nat × Nat :=
  (entries.foldl (fun m e => if e ≤ i ∧ m < e then e else m) 0,
   entries.foldl (fun m e => if i < e ∧ e < m then e else m) n)

/-- A slot with the encoding rules of check 5: those of run time, but that MOUT's format is judged by check 6. -/
def slotFit (k : SlotKind) (w : Word) : Bool :=
  let x := decodeSlot w
  if x.op = 0 then w == 0
  else if k = .m ∧ x.op = 0x45 ∧ ¬ moutFormats.contains (x.imm.toNat % 32) then
    slotLegal k { x with imm := x.imm - BitVec.ofNat 32 (x.imm.toNat % 32) + 1 } none
  else slotLegal k x none

/-- The loops of a code of `n` bundles, given by its C slots: the bundle of the LOOP, the first and the last of its
body. -/
def codeLoops (c : Nat → Insn) (n : Nat) : List (Nat × Nat × Nat) :=
  (List.range n).filterMap (fun i => if (c i).op = 0x1B then some (i, i + 1, i + (c i).imm.toNat) else none)

/-- The branches of a code: the bundle and its target. -/
def codeBranches (c : Nat → Insn) (n : Nat) : List (Nat × Int) :=
  (List.range n).filterMap (fun i =>
    if (c i).op = 0x18 ∨ (c i).op = 0x19 ∨ (c i).op = 0x1A then some (i, (i : Int) + (c i).imm.toInt) else none)

/-- The rules of R48 and the bounds of branches, over kernels that begin at the bundles `es`. -/
def flowFit (c : Nat → Insn) (n : Nat) (es : List Nat) : Bool :=
  let ls := codeLoops c n
  ls.all (fun l => decide (l.2.2 < (kernelSpan es n l.1).2) &&
    ls.all (fun m => decide (m.2.2 < l.2.1) || decide (l.2.2 < m.2.1) || decide (l.2.1 ≤ m.2.1 ∧ m.2.2 ≤ l.2.2)
      || decide (m.2.1 ≤ l.2.1 ∧ l.2.2 ≤ m.2.2)) &&
    decide ((ls.filter (fun m => decide (m.2.1 ≤ l.2.1 ∧ l.2.2 ≤ m.2.2))).length ≤ 4)) &&
  (codeBranches c n).all (fun b =>
    let (lo, hi) := kernelSpan es n b.1
    decide ((lo : Int) ≤ b.2) && decide (b.2 < (hi : Int)) &&
      ls.all (fun l => (decide (l.2.1 ≤ b.1 ∧ b.1 ≤ l.2.2)) == (decide ((l.2.1 : Int) ≤ b.2 ∧ b.2 ≤ (l.2.2 : Int)))))

/-- The rules of R48 and the kernel bounds of an image's code. -/
def flowOk (r : RawImage) : Bool := flowFit (fun i => decodeSlot (r.slot i 0)) r.bundles (r.kernels.map (·.entry))

/-- Check 5: LOAD_REFUSED_ENCODING (R40, R48, R61, R225). -/
def check5 (r : RawImage) : Bool :=
  let positions := if r.twin then r.cpc / 2 else r.cpc
  (List.range r.bundles).all (fun i =>
    slotFit .c (r.slot i 0) && slotFit .m (r.slot i 1) && slotFit .v (r.slot i 2) && slotFit .x (r.slot i 3) &&
      (let x := decodeSlot (r.slot i 0)
       decide (x.op ≠ 0x25) || decide (x.imm.toNat / 256 % 256 < 2 ^ positions)))
  && flowOk r
  && (List.range r.kcount).all (fun i =>
    let w := entryWord r.ktab i 0
    decide (fld w 15 11 = 0) && decide (fld w 63 20 = 0) && entryWord r.ktab i 3 == 0 &&
      decide (fld w 10 0 < r.bundles))

/-- Check 6: LOAD_REFUSED_FORMAT (R74, R93). -/
def check6 (r : RawImage) : Bool :=
  decide (r.h 0x20 4 < 2 ^ 20) &&
    (List.range r.bundles).all (fun i =>
      let x := decodeSlot (r.slot i 1)
      let f := x.imm.toNat % 32
      decide (x.op ≠ 0x45) || (moutFormats.contains f && r.h 0x20 4 / 2 ^ f % 2 == 1))

/-! ### Placement (R227, R439) -/

/-- A die on which images are placed: in service and unparked. -/
def dieActive (s : State) (d : Nat) : Bool := (getDie s d).inService && !parked s d

/-- Has a cluster room for the image's cluster-store footprint (R439)? -/
def hasRoom (s : State) (r : RawImage) (c : Nat) : Bool :=
  r.clBytes == 0 || !s.rime.images.any (fun i => i.home.contains c && decide (i.clBytes ≠ 0) && (r.safety || i.safety))

/-- The cores of a cluster that the image may take. -/
def freeCores (s : State) (r : RawImage) (c : Nat) : List Nat :=
  ((List.range 8).map (fun k => c * 8 + k)).filter (fun n =>
    (getCore s n).inService && !s.rime.images.any (fun i => (r.safety || i.safety) && i.cores.contains n))

/-- The cores the image takes on a cluster: the lowest-numbered, whole pairs for a twinned image (R256). -/
def pickCores (s : State) (r : RawImage) (c : Nat) : List Nat :=
  let fs := freeCores s r c
  let ok := if r.twin then fs.filter (fun n => fs.contains (twinOf n)) else fs
  ok.take r.cpc

/-- Clusters on active dies with room, and those that have the cores too. -/
def roomClusters (s : State) (r : RawImage) : List Nat :=
  (List.range 16).filter (fun c => dieActive s (dieOfCluster c) && hasRoom s r c)
def coreClusters (s : State) (r : RawImage) : List Nat :=
  (roomClusters s r).filter (fun c => (getClu s c).inService && decide (r.cpc ≤ (freeCores s r c).length))

/-- The dies an image lies on: home, regions, save areas and Firn shards (R264). -/
def imgFootDies (s : State) (i : Image) : List Nat :=
  imgDies i ++ i.regions.map (fun x => frameDie ((x.base - dramBase) / 0x8000)) ++
    i.mis.flatMap (fun m => match miOf s m with
      | some d => d.dies
      | none => [])

/-- The loaded fall-back of the submitting instance. -/
def fbOf (s : State) (r : RawImage) (owner : Nat) : Option Image :=
  match imgOf s r.fallback with
  | some i => if i.owner = owner then some i else none
  | none => none

/-- The home clusters a load takes. -/
def pickHome (s : State) (r : RawImage) (owner : Nat) : List Nat :=
  let avoid := if r.twin then (match fbOf s r owner with
    | some f => imgFootDies s f
    | none => []) else []
  ((coreClusters s r).filter (fun c =>
    !avoid.contains (dieOfCluster c) && decide (r.cpc ≤ (pickCores s r c).length))).take r.clusters

/-- The die that holds the most of some clusters, the lower on a tie. -/
def topDie (home : List Nat) : Nat :=
  (List.range 4).foldl (fun m d =>
    if (home.filter (fun c => dieOfCluster c == m)).length < (home.filter (fun c => dieOfCluster c == d)).length then d
    else m) 0

/-- Dies by ring distance from one, the lower on a tie (R227). -/
def ringOrder (d : Nat) : List Nat := (List.range 3).flatMap (fun x => (List.range 4).filter (fun y => ringDist y d == x))

/-- Is every frame of a run FREE in its die's common pool? -/
def runFree (s : State) (d f n : Nat) : Bool :=
  decide (f + n ≤ (d + 1) * 0x100000) && (List.range n).all (fun i => inPool s d (pageOfFrame s (f + i)))

/-- A free run of `n` frames of a die, from a starting frame upwards and round; which free run a load takes is open
(log entry 22). -/
def runFrom (s : State) (d n start : Nat) : Nat → Nat → Option Nat
  | 0, _ => none
  | fuel + 1, k =>
    let f := d * 0x100000 + (start + k) % 0x100000
    if runFree s d f n then some f else runFrom s d n start fuel (k + 1)

/-- A run taken out of the pool (R139). -/
def takeRun (s : State) (f n : Nat) : State :=
  match s.firn.init with
  | none => s
  | some i => { s with firn := { s.firn with init := some { i with held := i.held ++ [(f, n)] } } }

/-- A run given back to the pool (R139). -/
def giveRun (s : State) (f n : Nat) : State :=
  match s.firn.init with
  | none => s
  | some i => { s with firn := { s.firn with init := some { i with held := i.held.erase (f, n) } } }

/-- A run of at least `bytes` bytes on the first die of an order that has one. -/
def placeRun (s : State) (order : List Nat) (bytes : Nat) : Option (Nat × Nat × State) :=
  let n := ceilDiv bytes 0x8000
  let start := Config.choice s.free % 0x100000
  match order.findSome? (fun d =>
      if freeCount s d < n then none else runFrom s d n start 0x100000 0) with
  | some f => some (f, n, takeRun (drawn s) f n)
  | none => none

/-- Regions placed in table order. -/
def placeRegions (order : List Nat) : List RegDecl → State → List (Nat × Nat) → Option (List (Nat × Nat) × State)
  | [], s, acc => some (acc, s)
  | x :: xs, s, acc =>
    match placeRun s order x.size with
    | some (f, n, s) => placeRegions order xs s (acc ++ [(f, n)])
    | none => none

/-- Save areas placed for the home clusters (R227, R230). -/
def placeSaves (order : List Nat) (bytes : Nat) : List Nat → State → List (Nat × Nat) → Option (List (Nat × Nat) × State)
  | [], s, acc => some (acc, s)
  | c :: cs, s, acc =>
    match placeRun s (dieOfCluster c :: order.filter (· != dieOfCluster c)) bytes with
    | some (f, n, s) => placeSaves order bytes cs s (acc ++ [(f, n)])
    | none => none

/-- FREE pages of a die's common pool, `n` of them from a starting frame on. -/
def poolPages (s : State) (d start : Nat) : Nat → Nat → Nat → List Nat
  | 0, _, _ => []
  | _ + 1, _, 0 => []
  | fuel + 1, k, n + 1 =>
    let p := pageOfFrame s (d * 0x100000 + (start + k) % 0x100000)
    if inPool s d p then p :: poolPages s d start fuel (k + 1) n else poolPages s d start fuel (k + 1) (n + 1)

/-- Pages moved from a die's common pool into a model instance's reserve. -/
def fillReserve (s : State) (mi d n : Nat) : State :=
  if n = 0 then s
  else
    let ps := poolPages s d (Config.choice s.free % 0x100000) 0x100000 0 n
    let t := s.firn.tabs
    drawn (setTabs s { t with resv := ps.foldl (fun r p => Tab.set r p mi) t.resv })

/-- The dies the local shards of a model instance bind to (R140). -/
def bindDies (s : State) (r : RawImage) (home : List Nat) (m : MiDecl) : List Nat :=
  let hd := topDie home
  let mine := (List.range 4).filter (fun d => (home.map dieOfCluster).contains d)
  let act := (List.range 4).filter (dieActive s)
  let ring := if r.safety then mine else act.filter (fun d => decide (hd ≤ d)) ++ act.filter (fun d => decide (d < hd))
  (List.range m.localCount).map (fun i => ring.getD (i % ring.length) 0)

/-- Check 13: LOAD_REFUSED_FIRN (R140, R437), for the model instances with their dies. -/
def check13 (s : State) (ms : List (Nat × MiDecl)) : Bool :=
  let ids := ms.map (·.1)
  decide (ids.eraseDups.length = ids.length) &&
    ms.all (fun x => classOk x.2.cls && (miOf s x.1).isNone && (x.2.byPos || decide (x.2.heads % x.2.shards = 0)) &&
      decide (miKvh x.2 ≤ 255)) &&
    (List.range 4).all (fun d => decide (sumBy (fun x => declaredOn x.2 d) ms ≤ freeCount s d))

/-- The minima a load adds (R207): resource and units. -/
def loadMinima (s : State) (r : RawImage) (home : List Nat) (regs : List (Nat × Nat)) (ms : List (Nat × MiDecl)) :
    List (Nat × Nat) :=
  let fromRegs := regs.flatMap (fun x => (List.range (min x.2 8)).flatMap (fun i => (framePchs s (x.1 + i)).map (·.1)))
  let fromFirn := ms.flatMap (fun x => if x.2.reserve = 0 then [] else x.2.dies.flatMap (fun d => [2 * d, 2 * d + 1]))
  (if r.h 0x34 2 = 0 then [] else (fromRegs ++ fromFirn).eraseDups.map (fun k => (k, r.h 0x34 2)))
    ++ (if r.h 0x36 2 = 0 then [] else home.map (fun c => (8 + c, r.h 0x36 2)))

/-- A minimum added or taken away. -/
def addMin (s : State) (r c : Nat) (v : Int) : State :=
  driftRecompute (wrf s (Reg.DRIFT_SHARE (r * 8 + c)) 15 0 ((minOf s r c : Int) + v).toNat) r
    (rdf s (Reg.DRIFT_CAP r) 15 0) (shortfall s r)

/-! ### The load (R72, R227) -/

/-- The cluster semaphores the code names (R55). -/
def codeSems (r : RawImage) : List Nat :=
  ((List.range r.bundles).flatMap (fun i => (List.range 4).filterMap (fun k =>
    let x := decodeSlot (r.slot i k)
    if 0x20 ≤ x.op ∧ x.op ≤ 0x23 ∧ x.imm.toNat / 256 % 2 = 1 then some (x.imm.toNat % 256) else none))).eraseDups

/-- The refusal code of the first check that fails (Table 02.14), or the placed image and the state with everything it
takes. Check 7 finds no job to judge: no table of the image says where its job descriptors lie (log entry 24). -/
def loadChecks (s : State) (r : RawImage) (owner addr : Nat) : Nat ⊕ (Image × List (Nat × MiDecl) × State) :=
  let lab := fnLabel owner
  if ¬ check1 s r then .inl 0x01
  else if ¬ check2 s r then .inl 0x02
  else if ¬ check3 s r lab addr then .inl 0x03
  else if ¬ check4 r then .inl 0x04
  else if ¬ check5 r then .inl 0x05
  else if ¬ check6 r then .inl 0x06
  else if 1048576 < r.csBytes ∨ 65536 < r.instrBytes ∨ 8388608 < r.clBytes
      ∨ (roomClusters s r).length < r.clusters then .inl 0x08
  else if (coreClusters s r).length < r.clusters then .inl 0x09
  else
    let home := pickHome s r owner
    let fb := fbOf s r owner
    let cores := home.flatMap (pickCores s r)
    let fbBad : Bool := match fb with
      | some f => !f.safety
      | none => false
    if r.twin ∧ (¬ r.safety ∨ r.deadline = 0 ∨ r.fallback = 0 ∨ fbBad ∨ home.length < r.clusters) then .inl 0x0A
    else if r.fallback ≠ 0 ∧ fb.isNone then .inl 0x0B
    else
      let ring := ringOrder (topDie home)
      let order := ring.filter (fun d =>
        dieActive s d && (!r.safety || (home.map dieOfCluster).contains d))
      match placeRegions order r.regions s [] with
      | none => .inl 0x0C
      | some (regs, s1) =>
        let bytes := r.cpc * r.csBytes + r.clBytes
        let needSave := !r.safety && decide (bytes ≠ 0) && r.kernels.any (·.live)
        match (if needSave then placeSaves order bytes home s1 [] else some ([], s1)) with
        | none => .inl 0x0C
        | some (saves, s2) =>
          let ms := r.mis.map (fun x => (x.1, { x.2 with owner := owner, dies := bindDies s r home x.2 }))
          let minima := loadMinima s2 r home regs ms
          if ¬ check13 s2 ms then .inl 0x0D
          else if (r.safety = false ∧ (r.drift = 0 ∨ r.kernels.any (fun k => k.drift == 0)))
              ∨ ¬ minima.all (fun x => driftAdmits s2 x.1 r.drift x.2) then .inl 0x0E
          else if r.deadline ≠ 0 ∧ 6 * r.deadline < r.wcet * cdivAct s (dieOfCluster (home.headD 0)) then .inl 0x0F
          else
            let img : Image :=
              { id := r.id, owner := owner, fallback := r.fallback, formats := BitVec.ofNat 32 (r.h 0x20 4),
                twin := r.twin, safety := r.safety, cpc := r.cpc, clusters := r.clusters, drift := r.drift,
                csBytes := r.csBytes, clBytes := r.clBytes, dramMin := r.h 0x34 2, csMin := r.h 0x36 2,
                deadline := r.deadline, wcet := r.wcet,
                code := (List.range (4 * r.bundles)).map (fun i => PWord.clean (r.slot (i / 4) (i % 4))),
                home := home, cores := cores,
                regions := (List.range r.rcount).filterMap (fun i => match r.regions[i]?, regs[i]? with
                  | some x, some y => some ⟨frameAddr y.1, x.size, x.wr⟩
                  | _, _ => none),
                saves := (List.range home.length).filterMap (fun i => match home[i]?, saves[i]? with
                  | some c, some y => some (c, frameAddr y.1, bytes)
                  | _, _ => none),
                mis := ms.map (·.1), kernels := r.kernels, sems := codeSems r, minima := minima,
                frames := regs ++ saves, loading := true }
            .inr (img, ms, s2)

/-- INIT contents copied from the image into its regions (R436). -/
def copyInit (s : State) (r : RawImage) (addr : Nat) (i : Image) : State :=
  (List.range r.rcount).foldl (fun t k => match r.regions[k]?, i.regions[k]? with
    | some x, some y =>
      let (bs, t) := busReadBytes t (fwWho 3) (imgLabel i) (addr + x.initOff) x.initBytes
      busWriteBytes (fwWho 3) (imgLabel i) (x.initBytes / 8 + 2) t y.base bs
    | _, _ => t) s

/-- An accepted image taken up: its frames, shards and reserves, minima, contents, and a pinned image's cores. -/
def takeImage (s : State) (r : RawImage) (addr : Nat) (i : Image) (ms : List (Nat × MiDecl)) : State :=
  let s := { s with rime := { s.rime with images := s.rime.images ++ [i] } }
  let s := ms.foldl (fun t x =>
    let t := { t with firn := { t.firn with mis := Tab.set t.firn.mis x.1 x.2 } }
    forUpTo 4 (fun d u => fillReserve u x.1 d (declaredOn x.2 d)) t) s
  let s := if i.frames.isEmpty ∧ ms.isEmpty then s else firnCounts s
  let s := i.minima.foldl (fun t x => addMin t x.1 i.drift (x.2 : Int)) s
  let s := copyInit s r addr i
  let s := if i.safety then loadCode s i else s
  i.cores.foldl (fun t n => if i.twin then wrb t (Reg.CORE_CTL n) 2 true else t) s

/-- A load completes with OK (Table 08.7): the image can be run, and Serac hears of it (R266). -/
def loadDone (s : State) (pid : Nat) (i : Image) : State :=
  let s := { s with rime := { s.rime with
    images := s.rime.images.map (fun x => if x.id = i.id then { x with loading := false } else x) } }
  doneR (taskLoaded s i.id) pid 0x00 [i.id, BitVec.ofNat 64 (homeMask i)]

/-- The region the weights are written into. -/
def weightDest (r : RawImage) (i : Image) : Nat :=
  match r.regions.findIdx? (·.weights) with
  | some k => (match i.regions[k]? with
    | some x => x.base
    | none => 0)
  | none => 0

/-- A long operation begins (R239). -/
def longBegin (s : State) (p : Pend) (k : LongKind) : State :=
  let s := begun s p.id
  let op : LongOp := ⟨p.id, p.ent, k, 0, false, [], [], false, false⟩
  let s := { s with rime := { s.rime with longs := s.rime.longs ++ [op] } }
  trace s 3 0x08 p.ent.tag.toNat 0

/-- MODEL_LOAD (R72): refused with the code of its first failing check, or placed; its weights then follow chunk by
chunk. A load waits while a boundary is in progress (R139). -/
def modelLoad (s : State) (e : Ent) (addr len : Nat) : State :=
  match takePend s e 0x10 [BitVec.ofNat 64 addr, BitVec.ofNat 64 len] with
  | none => s
  | some p =>
    if serving s 0 ∧ live s 3 ∧ s.firn.busy.isNone then
      let (r, s) := readImage s (fnLabel e.fn) addr len
      match loadChecks s r e.fn addr with
      | .inl code => doneD s p.id 0x06 code
      | .inr (i, ms, t) =>
        let t := takeImage t r addr i ms
        if r.weights = 0 ∨ r.plainBytes = 0 then loadDone t p.id i
        else match weightKeyOf s r with
          | some k => longBegin t p (.modelLoad i.id (addr + chunkOff r 0) (weightDest r i) r.plainBytes
              (fieldAt r.wts 0x1C 4) k)
          | none => doneD s p.id 0x06 0x03
    else s

def execModelLoad (e : Ent) (addr len : Nat) (s : State) : Result := .next (modelLoad s e addr len)

/-! ### Unloading (R231, R303, R366) -/

/-- Every sequence of a model instance freed as phase 1 frees a released one (R231). -/
def dropMi (s : State) (mi : Nat) : State :=
  let qs := (s.firn.tabs.seqs.filter (fun e => e.2.mi == mi && e.2.state != 0)).map (·.1)
  let s := qs.foldl releaseSeq s
  let s := (s.firn.tabs.swaps.filter (fun x => x.1 == mi)).foldl (fun t x => freePage t mi x.2) s
  let t := s.firn.tabs
  let s := setTabs s { t with
    resv := t.resv.filter (fun e => e.2 != mi), carried := Tab.del t.carried mi,
    swaps := t.swaps.filter (fun x => x.1 != mi) }
  { s with firn := { s.firn with mis := Tab.del s.firn.mis mi, steps := Tab.del s.firn.steps mi } }

/-- Firn commands of a model instance consumed and not taken (R231). -/
def firnPending (s : State) (mi : Nat) (p : Pend) : Bool :=
  p.res.isNone && ((p.opcode == 0x40 && fld (p.words.getD 0 0) 15 0 == mi) ||
    (p.opcode == 0x41 && (seqOf s (fld (p.words.getD 0 0) 15 0)).mi == mi &&
      (seqOf s (fld (p.words.getD 0 0) 15 0)).state != 0))

/-- The streams, rings and CAN queues of an image stop before its regions go (R366): a frame in progress is dropped. -/
def stopStreams (s : State) (id : Word) : State :=
  let mine := (s.streams.cfg.filter (fun e => e.2.image == id)).map (·.1)
  let s := { s with streams := { s.streams with rt := s.streams.rt.map (fun e =>
      if mine.contains e.1 then (e.1, { e.2 with open_ := false, lines := [] }) else e) } }
  mine.foldl (fun t k => wrb t (Reg.STR_STATUS k) 0 false) s

/-- The conduit keys of an image erased (R303). -/
def eraseKeys (s : State) (id : Word) : State :=
  { s with baseth := { s.baseth with keys := s.baseth.keys.filter (fun e => e.2.image != id || id == 0) } }

/-- Everything a load granted given back (R231). -/
def releaseImage (s : State) (i : Image) : State :=
  let s := stopStreams s i.id
  let cmds := (s.rime.pend.filter (fun p => i.mis.any (fun mi => firnPending s mi p))).map (·.id)
  let s := i.mis.foldl dropMi s
  let s := { s with firn := { s.firn with queue := s.firn.queue.filter (fun c => !i.mis.contains c.mi) } }
  let s := cmds.foldl (fun t p => done t p 0x07) s
  let s := i.frames.foldl (fun t x => giveRun t x.1 x.2) s
  let s := if i.frames.isEmpty ∧ i.mis.isEmpty then s else firnCounts s
  let s := i.minima.foldl (fun t x => addMin t x.1 i.drift (-(x.2 : Int))) s
  let s := i.cores.foldl (fun t n => if i.twin then wrb t (Reg.CORE_CTL n) 2 false else t) s
  let s := { s with rime := { s.rime with
    images := s.rime.images.filter (fun x => x.id != i.id),
    code := s.rime.code.filter (fun e => e.2 != i.id), ctx := s.rime.ctx.filter (fun e => e.2 != i.id) } }
  taskUnloaded (eraseKeys s i.id) i.id

/-- A job of the image is in flight. -/
def imageInFlight (s : State) (id : Word) : Bool :=
  s.rime.pend.any (fun p => p.opcode == 0x01 && p.res.isNone && (p.words.getD 0 0 == id ||
    (match jobOf s p.job with
      | some j => j.run == id
      | none => false)))

/-- MODEL_UNLOAD (R231): it waits for a boundary in progress. -/
def modelUnload (s : State) (e : Ent) (image : Word) : State :=
  match takePend s e 0x11 [image] with
  | none => s
  | some p =>
    if serving s 0 ∧ s.firn.busy.isNone then
      match imgOf s image with
      | none => done s p.id 0x07
      | some i =>
        if imageInFlight s image ∨ s.rime.images.any (fun x => x.fallback == image && x.id != image) then
          done s p.id 0x0A
        else done (releaseImage s i) p.id 0x00
    else s

def execModelUnload (e : Ent) (image : Word) (s : State) : Result := .next (modelUnload s e image)

end Sys2Proof.Machine
end

