-- ==== Sys2Proof/Machine/Service.lean ====
section
/-! DEFINITION. Units in and out of service (R187, R206, R263, R273, R277), safety windows (R271), and the pieces of an
instance's reset that several commands share (R316, R317, R334). -/

namespace Sys2Proof.Machine

/-! ### Service (R206, R277) -/

def setSerac (s : State) (x : SeracSt) : State := { s with serac := x }

/-- A unit that left service has passed nothing since. -/
def forgetPass (s : State) (u : ServUnit) : State :=
  setSerac s { s.serac with
    passed := s.serac.passed.filter (· != u),
    out := if s.serac.out.contains u then s.serac.out else s.serac.out ++ [u] }

/-- Capacity and minima of a cluster that leaves service or parks (R206). -/
def cluDrift (s : State) (c : Nat) : State := driftCap (driftClear s c) (8 + c)

/-- A unit leaves service at once. -/
def unitOut (s : State) (u : ServUnit) : State :=
  match u with
  | .core n => forgetPass (updCore s n (fun c => { c with inService := false })) u
  | .pair c i =>
    let s := updCore s (8 * c + 2 * i) (fun x => { x with inService := false })
    let s := updCore s (8 * c + 2 * i + 1) (fun x => { x with inService := false })
    forgetPass s u
  | .cluster c => forgetPass (cluDrift (setClu s c { getClu s c with inService := false }) c) u
  | .die d =>
    let s := setDie s d { getDie s d with inService := false }
    forgetPass (forUpTo 4 (fun i t => cluDrift t (4 * d + i)) s) u

/-- A pair retires (R263): out of service, its bit, its flag, its record. -/
def pairRetire (s : State) (c i : Nat) : State :=
  let s := unitOut s (.pair c i)
  let s := wrb s Reg.SERAC_PAIR_RETIRED (4 * c + i) true
  iceEvent (iceAdd (seracFlag s 2) 0x204 32 1) 1 (4 * c + i) 0x42

/-! ### Safety windows (R266, R271) -/

/-- Is a window of a supervised task open? -/
def windowOpen (s : State) : Bool :=
  (List.range 32).any (fun n =>
    let t := nowN s
    let o := taskOffset s n * 1000
    taskOn s n && (getTask s n).live && decide (o ≤ t) && decide (taskPeriod s n ≠ 0) &&
      decide ((t - o) % (taskPeriod s n * 1000) ≤ taskBudget s n * 1000))

/-- Does a slice of 200 µs that starts now end before every next window opens? -/
def windowClear (s : State) : Bool :=
  (List.range 32).all (fun n =>
    let t := nowN s
    let o := taskOffset s n * 1000
    let p := taskPeriod s n * 1000
    !(taskOn s n && (getTask s n).live) ||
      (if t < o then decide (t + 200000 < o) else decide (p ≠ 0) && decide (t + 200000 < t + (p - (t - o) % p))))

/-! ### Functions (R316, R317, R320) -/

/-- The dirty log of an instance stopped. -/
def stopDirty (s : State) (fn : Nat) : State :=
  wrb { s with host := { s.host with dirty := Tab.del s.host.dirty fn } } (Reg.INST_STATE 16 fn) 3 false

/-- Every image of a function unloaded, an image before its fall-back. -/
def unloadFn (s : State) (fn : Nat) : State :=
  let mine := s.rime.images.filter (fun i => i.owner == fn)
  let first := mine.filter (fun i => !mine.any (fun x => x.fallback == i.id && x.id != i.id))
  let rest := mine.filter (fun i => mine.any (fun x => x.fallback == i.id && x.id != i.id))
  (first ++ rest).foldl releaseImage s

/-- Every sequence a function owns freed. -/
def freeSeqs (s : State) (fn : Nat) : State :=
  ((s.firn.tabs.seqs.filter (fun e => e.2.owner == fn && e.2.state != 0)).map (·.1)).foldl releaseSeq s

/-- The doorbell page of a function as reset leaves it; the firmware epoch and version are the device's. -/
def resetPage (s : State) (fn : Nat) : State :=
  let s := forUpTo 4 (fun p t =>
    wr (wr (wr (wr t (Reg.HIF_SQ_TAIL fn p) 0) (Reg.HIF_CQ_HEAD fn p) 0) (Reg.HIF_SQ_HEAD fn p) 0)
      (Reg.HIF_CQ_TAIL fn p) 0) s
  let s := wr (wr (wr s (Reg.HIF_HOST_VER fn) 0) (Reg.HIF_CTL fn) 0) (Reg.HIF_STATUS fn) 0
  wr s (Reg.HIF_EVCNT fn) 0

/-- What firmware keeps of a function gone: version, records, counts, entries, messages. -/
def resetFnState (s : State) (fn : Nat) : State :=
  let f := getFn s fn
  let s := setFn s fn { bme := f.bme }
  { s with rime := { s.rime with
      pend := s.rime.pend.filter (fun p => p.ent.fn != fn),
      jobs := s.rime.jobs.filter (fun j => j.ent.fn != fn),
      longs := s.rime.longs.filter (fun o => o.own || o.ent.fn != fn),
      msixPend := s.rime.msixPend.filter (fun m => m.1 != fn) } }

/-- INST_RESET's effect (R317). -/
def resetInstance (s : State) (fn : Nat) : State :=
  let s := freeSeqs (unloadFn s fn) fn
  let s := if s.firn.init.isSome then firnCounts s else s
  setInst (stopDirty (resetPage (resetFnState s fn) fn) fn) fn 0

/-! ### Mailbox events (R315, R319) -/

/-- An MBX_EVENT flag sets, and vector 0 of the physical function is due. -/
def mbxEvent (s : State) (i : Nat) : State :=
  msixDue (hwSetBit s (Reg.MBX_EVENT 16) (Reg.MBX_EVCNT 16) i) 16 0

/-! ### Enclaves (R334) -/

/-- An enclave destroyed: its range zeroed, its slot free. -/
def enclDestroy (s : State) (n : Nat) : State :=
  let lo := rdf s (Reg.ENCL_A n) 47 12 * 4096
  let hi := lo + rdf s (Reg.ENCL_B n) 28 12 * 4096
  let s := { s with
    mem := memClear s.mem lo hi, poison := s.poison.filter (fun w => !(lo / 8 ≤ w && w < hi / 8)),
    sec := { s.sec with encl := Tab.del s.sec.encl n } }
  wr (wr s (Reg.ENCL_A n) 0) (Reg.ENCL_B n) 0

end Sys2Proof.Machine
end

