-- ==== Sys2Proof/Machine/Long.lean ====
section
/-! DEFINITION. Long operations (R239-R242, Table 08.11): what each does between two suspend points, suspension,
resumption and cancellation, and the slices of a self-test (R270-R273). -/

namespace Sys2Proof.Machine

/-! ### The list of operations -/

def setLongs (s : State) (l : List LongOp) : State := { s with rime := { s.rime with longs := l } }
def longOf (s : State) (pid : Nat) : Option LongOp := s.rime.longs.find? (fun o => o.pid == pid)
def updLong (s : State) (pid : Nat) (f : LongOp → LongOp) : State :=
  setLongs s (s.rime.longs.map (fun o => if o.pid = pid then f o else o))

/-- A TENANT_SCRUB runs or is suspended (R241, R325). -/
def scrubOn (s : State) : Bool := s.rime.longs.any (fun o => o.kind == .scrub)

/-- A slot marked empty (R406). -/
def slotEmpty (s : State) (k : Nat) : State :=
  wrb { s with power := { s.power with slots := Tab.set s.power.slots k {} } } Reg.FW_STATUS (2 + k) false

/-- An operation ends: its own completion, the LONG_CANCELs that ended it, and the other commands that waited. -/
def longEnd (s : State) (o : LongOp) (x : Comp) : State :=
  let s := setLongs s (s.rime.longs.filter (fun k => k.pid != o.pid))
  let s := if o.own then s else finish (trace s 3 0x08 o.ent.tag.toNat 2) o.pid x
  let s := o.suspendReqs.foldl (fun t c => done t c 0x0B) s
  o.cancelReqs.foldl (fun t c => doneR t c (if x.status = 0x04 then 0x00 else 0x0B) [BitVec.ofNat 64 o.progress]) s

/-- What a cancelled operation leaves (Table 08.11). -/
def longUndo (s : State) (o : LongOp) : State :=
  match o.kind with
  | .modelLoad id _ _ _ _ _ => (match s.rime.images.find? (fun i => i.id == id) with
    | some i => releaseImage s i
    | none => s)
  | .fwStage _ _ slot => slotEmpty s slot
  | .selftest _ _ _ _ _ => (match s.serac.slice with
    | some x => if x.pid = o.pid then sliceAbandon s else s
    | none => s)
  | _ => s

/-- The operation ends cancelled (R240). -/
def longCancelled (s : State) (o : LongOp) : State :=
  longEnd (longUndo s o) o { status := 0x04, results := [BitVec.ofNat 64 o.progress] }

/-- A suspend point: what waits for it takes effect (R240). -/
def suspendPoint (s : State) (pid : Nat) : State :=
  match longOf s pid with
  | none => s
  | some o =>
    let s := o.suspendReqs.foldl (fun t c => doneR t c 0x00 [BitVec.ofNat 64 o.progress]) s
    let stop := !o.suspendReqs.isEmpty
    let o' := { o with suspendReqs := [], suspended := o.suspended || stop }
    let s := updLong s pid (fun _ => o')
    if o.cancelled ∧ o.kind ≠ .scrub then longCancelled s o'
    else if stop ∧ ¬ o.own then trace s 3 0x08 o.ent.tag.toNat 1
    else s

/-- The operation has done all it had to do. -/
def longDone (s : State) (o : LongOp) : State :=
  longEnd s o { status := 0x00, results := [BitVec.ofNat 64 o.progress] }

/-- The operation ends FAILED with a detail (R273, R406). -/
def longFail (s : State) (o : LongOp) (detail : Nat) : State :=
  longEnd s o { status := 0x01, detail := detail, results := [BitVec.ofNat 64 o.progress] }

/-! ### One unit of work of each operation -/

/-- A range of 64-bit words filled with a pattern (R176). -/
def fillRange (s : State) (lab : Label) (a n : Nat) (v : Word) : State :=
  forUpTo (n / 8) (fun k t =>
    busWrite (if k % 8 = 0 then driftAccess t lab (a + 8 * k) else t) (fwWho 3) lab (a + 8 * k) (PWord.clean v)) s

/-- The next MiB of a MEM_FILL. -/
def fillPoint (s : State) (o : LongOp) (base len : Nat) (v : Word) (cls : Nat) : State :=
  let a := o.progress * 1048576
  let n := if len - a < 1048576 then len - a else 1048576
  let o' := { o with progress := o.progress + 1 }
  let s := updLong (fillRange s ⟨cls, o.ent.fn⟩ (base + a) n v) o.pid (fun _ => o')
  if len ≤ a + n then longDone s o' else suspendPoint s o.pid

/-- The next weight chunk of a MODEL_LOAD decrypted into its region (R340). -/
def loadPoint (s : State) (o : LongOp) (id : Word) (addr dest bytes nonce : Nat) (key : BitVec 256) : State :=
  let c := o.progress
  let n := chunkLen bytes c
  let lab : Label := match imgOf { s with rime := { s.rime with
      images := s.rime.images.map (fun i => { i with loading := false }) } } id with
    | some i => imgLabel i
    | none => fwLabel
  let (bs, s) := busReadBytes s (fwWho 3) lab (addr + c * 1048592) n
  let plain := Config.weightOpen key nonce c (bs.map (·.1))
  let s := busWriteBytes (fwWho 3) lab (n / 8 + 2) s (dest + c * 1048576)
    ((List.range n).map (fun i => (plain.getD i 0, (bs.getD i (0, false)).2)))
  let o' := { o with progress := c + 1 }
  let s := updLong s o.pid (fun _ => o')
  if bytes ≤ (c + 1) * 1048576 then
    match s.rime.images.find? (fun i => i.id == id) with
    | some i =>
      let s := setLongs s (s.rime.longs.filter (fun k => k.pid != o.pid))
      let s := loadDone (trace s 3 0x08 o.ent.tag.toNat 2) o.pid i
      (o.suspendReqs ++ o.cancelReqs).foldl (fun t q => done t q 0x0B) s
    | none => s
  else suspendPoint s o.pid

/-- The next 64 KiB of a FW_STAGE written to flash; after the last, the read-back is verified (R406). -/
def stagePoint (s : State) (o : LongOp) (addr len slot : Nat) (flashErr : Bool) : State :=
  let a := o.progress * 65536
  let n := if len - a < 65536 then len - a else 65536
  let (bs, s) := busReadBytes s (fwWho 3) (fnLabel o.ent.fn) (addr + a) n
  let old := Tab.get {} s.power.slots slot
  let new : Slot := { old with bytes := old.bytes ++ bs.map (·.1) }
  let o' := { o with progress := o.progress + 1 }
  let s := updLong { s with power := { s.power with slots := Tab.set s.power.slots slot new } } o.pid (fun _ => o')
  if flashErr ∨ bs.any (·.2) then longFail (slotEmpty s slot) o' 0x05
  else if len ≤ a + n then
    match Config.verifyPackage new.bytes with
    | none => longFail (slotEmpty s slot) o' 0x01
    | some svn =>
      if svn < rdf s Reg.FW_MIN_SVN 15 0 then longFail (slotEmpty s slot) o' 0x02
      else
        let ok : Slot := { new with valid := true, svn := svn }
        longDone (wrb { s with power := { s.power with slots := Tab.set s.power.slots slot ok } }
          Reg.FW_STATUS (2 + slot) true) o'
  else suspendPoint s o.pid

/-- ACTIVE pages that sequences of a model instance name. -/
def miPages (s : State) (mi : Nat) : List Nat :=
  ((s.firn.tabs.seqs.filter (fun e => e.2.mi == mi && e.2.state != 0)).flatMap (fun e =>
    let t := match miOf s mi with
      | some m => classT m.cls
      | none => 1
    (slotsOf e.2.kvh 0 (ceilDiv e.2.len t)).filterMap (fun x => slotPage s e.2 x.1 x.2))).eraseDups.filter
      (fun n => pageState s n == 2)

/-- One page of a KV_COMPACT moved (R161): the page keeps its number and takes a FREE page's frame of its die, whose
number keeps the old frame until the next boundary. Which page moves is open (log entry 22). -/
def movePage (s : State) (mi : Nat) (m : MiDecl) : Option State :=
  let ps := (miPages s mi).filter (fun n => decide (0 < avail s mi (frameDie (pageEnt s n).frame)) &&
    (copyCluster s (frameDie (pageEnt s n).frame)).isSome)
  match ps[Config.choice s.free % ps.length]? with
  | none => none
  | some n =>
    let e := pageEnt s n
    let d := frameDie e.frame
    match pickPage s mi d, copyCluster s d with
    | some k, some c =>
      let f := (pageEnt s k).frame
      let t := s.firn.tabs
      let s := drawn (setTabs s { t with resv := Tab.del t.resv k })
      let s := copyPage s c (miLabel s mi) (frameAddr e.frame) (frameAddr f)
      let s := setPage (setPage s n { e with frame := f }) k ⟨e.frame, 1, m.cls, 1, m.owner⟩
      let s := setTabs s { s.firn.tabs with swaps := s.firn.tabs.swaps ++ [(mi, k)] }
      some (firnCounts (tcInvalidate s [n, k]))
    | _, _ => none

/-- The next page of a KV_COMPACT; it waits for a boundary of its model instance. -/
def compactPoint (s : State) (o : LongOp) (mi pages : Nat) : State :=
  if s.firn.busy.isSome then s
  else
    match miOf s mi with
    | none => longDone s o
    | some m =>
      if pages ≤ o.progress then longDone s o
      else match movePage s mi m with
        | none => longDone s o
        | some t =>
          let o' := { o with progress := o.progress + 1 }
          let t := updLong t o.pid (fun _ => o')
          if pages ≤ o'.progress then longDone t o' else suspendPoint t o.pid

/-- The persistent tenant state (R322, R325), stored again where it changes. -/
def setTenant (s : State) (st : Nat) (id : Word) : State :=
  let s := wr (wrn s Reg.SEC_TENANT st) Reg.SEC_TENANT_ID id
  nvmSave s 0 { s.power.nvm with tenant := st, tenantId := id }

/-- Words of a DRAM range zeroed with clear poison, absent addresses left as they are (R324). -/
def scrubDram (s : State) (lo hi : Nat) : State :=
  let hit (a : Nat) : Bool := decide (lo ≤ a) && decide (a < hi) &&
    (absentAt s (( a - dramBase) / 0x800000000) ((a - dramBase) % 0x800000000)).isNone
  { s with mem := s.mem.filter (fun e => !hit e.1), poison := s.poison.filter (fun w => !hit (w * 8)) }

/-- What a scrub clears last: keys, enclaves, sessions, debug rights, caches, Firn tables (Table 12.2). -/
def scrubKeys (s : State) : State :=
  let s := forUpTo 8 (fun n t => if rdb t (Reg.ENCL_A n) 51 then enclDestroy t n else t) s
  let s := { s with
    baseth := { s.baseth with keys := [] }, sec := { s.sec with ses := [] },
    firn := { s.firn with tc := [], tabs := {}, steps := [], queue := [] } }
  let s := if s.firn.init.isSome then firnCounts s else s
  wr s Reg.SEC_DBG 0

/-- The end of a scrub (R322, R324, R325): its completion, every instance reset, the tenant gone. -/
def scrubEnd (s : State) (o : LongOp) : State :=
  let s := longDone (scrubKeys s) o
  let s := allFns.foldl resetInstance s
  let s := setTenant s 0 0
  if o.own then mbxEvent s 4 else s

/-- The next part of a TENANT_SCRUB (R324): a GiB of DRAM, then the tenant areas and a die's stores. -/
def scrubPoint (s : State) (o : LongOp) : State :=
  let k := o.progress
  let o' := { o with progress := k + 1 }
  let s :=
    if k < 128 then
      let lo := dramBase + k * 0x40000000
      scrubDram s (if lo < watermark s then watermark s else lo) (lo + 0x40000000)
    else fillStart s (k - 128)
  let s := updLong s o.pid (fun _ => o')
  if 132 ≤ o'.progress then scrubEnd s o' else if o.own then s else suspendPoint s o.pid

/-! ### Self-test (R270-R273) -/

/-- The coverage set in its order: cores, clusters, dies, the hub, then the regions of loaded images (R270). -/
def coverage (s : State) : List (Nat × Nat) :=
  ((List.range 128).filter (fun n => (getCore s n).inService && dieActive s (dieOfCore n))).map (fun n => (0, n))
    ++ ((List.range 16).filter (cluUp s)).map (fun c => (1, c))
    ++ ((List.range 4).filter (dieActive s)).map (fun d => (2, d)) ++ [(5, 0)]
    ++ (s.rime.images.flatMap (fun i => i.regions.map (fun r => (3, r.base))))

/-- The slice a self-test has to run next. -/
def nextSlice (s : State) (o : LongOp) : Option (Nat × Nat) :=
  match o.kind with
  | .selftest kind unit base _ periodic =>
    if periodic then (coverage s)[o.progress % (coverage s).length]?
    else some (kind, if kind = 3 ∨ kind = 4 then base else unit)
  | _ => none

/-- The dies a slice's target lies on. -/
def sliceDies (kind unit : Nat) : List Nat :=
  match kind with
  | 0 => [dieOfCore unit]
  | 1 => [dieOfCluster unit]
  | 2 => [unit]
  | 3 => [(unit - dramBase) / 0x800000000]
  | 4 => [unit % 8 / 2]
  | _ => []

/-- Is the slice's target idle (R271)? -/
def sliceIdle (s : State) (kind unit : Nat) : Bool :=
  match kind with
  | 0 => !running s unit
  | 1 => !cluBusy s unit && (List.range 8).all (fun k => !running s (8 * unit + k))
  | 2 => s.firn.busy.isNone
  | _ => true

/-- The self-test in flight (R241). -/
def selftestOp (s : State) : Option LongOp :=
  s.rime.longs.find? (fun o => match o.kind with
    | .selftest _ _ _ _ _ => !o.suspended
    | _ => false)

/-- The write-back controls of a slice's dies. -/
def wbRegs (ds : List Nat) : List Nat :=
  ds.flatMap (fun d => [Reg.DIE_MEM_CTL d, Reg.MEM_CTL (2 * d), Reg.MEM_CTL (2 * d + 1)])

/-- Write-back set on some dies (R179), or as it was before. -/
def wbSet (s : State) (ds : List Nat) : State :=
  ds.foldl (fun t d => wrb (wrb (wrb t (Reg.DIE_MEM_CTL d) 1 true) (Reg.MEM_CTL (2 * d)) 0 true)
    (Reg.MEM_CTL (2 * d + 1)) 0 true) s
def wbRestore (s : State) (saved : List (Nat × Word)) : State := saved.foldl (fun t x => wr t x.1 x.2) s

/-- A slice starts, or is deferred for a safety window (R271). -/
def sliceStart (s : State) : State :=
  match s.serac.slice, selftestOp s with
  | none, some o => (match nextSlice s o with
    | none => s
    | some (kind, unit) =>
      if ¬ sliceIdle s kind unit then s
      else if windowOpen s ∨ ¬ windowClear s then incSat s Reg.SERAC_ST_DEFER 32 1
      else
        let ds := sliceDies kind unit
        let saved := (wbRegs ds).map (fun a => (a, rd s a))
        wbSet (setSerac s { s.serac with slice := some ⟨kind, unit, o.pid, saved⟩ }) ds)
  | _, _ => s

/-- The running slice leaves its target as it was and ends. -/
def sliceOver (s : State) (x : Slice) : State :=
  wbRestore (setSerac s { s.serac with slice := none }) x.saved

/-- The unit a slice tests. -/
def sliceUnit (kind unit : Nat) : Option ServUnit :=
  match kind with
  | 0 => some (.core unit)
  | 1 => some (.cluster unit)
  | 2 => some (.die unit)
  | _ => none

/-- A unit has passed the self-test of its kind; a pair both of whose cores have passed is no longer SUSPECT (R263). -/
def unitPassed (s : State) (u : ServUnit) : State :=
  let s := setSerac s { s.serac with passed := if s.serac.passed.contains u then s.serac.passed else s.serac.passed ++ [u] }
  match u with
  | .core n =>
    if s.serac.passed.contains (.core (twinOf n)) then
      setSerac (wrb s Reg.SERAC_PAIR_SUSPECT (n / 2) false) { s.serac with
        passed := s.serac.passed ++ [.pair (clusterOf n) (n % 8 / 2)] }
    else s
  | _ => s

/-- A pseudo-channel's self-test has passed: its retirement may be cleared (R186). -/
def pchPassed (s : State) (p : Nat × Nat) : State :=
  if s.power.nvm.pchPassed.contains p then s
  else setNvm s { s.power.nvm with pchPassed := s.power.nvm.pchPassed ++ [p] }

/-- A slice has ended (R273): a failing unit leaves service, and the test goes on or ends. -/
def sliceEnd (s : State) (pass : Bool) : State :=
  match s.serac.slice with
  | none => s
  | some x =>
    let s := sliceOver s x
    let s := match sliceUnit x.kind x.unit with
      | some u => if pass then unitPassed s u else unitOut s u
      | none => s
    let s := if pass then (if x.kind = 4 then pchPassed s (x.unit % 8, x.unit / 8 % 32) else s)
      else iceAdd (seracFlag s 5) 0x20C 32 1
    match longOf s x.pid with
    | none => s
    | some o =>
      let o' := { o with progress := o.progress + 1 }
      let s := updLong s o.pid (fun _ => o')
      match o.kind with
      | .selftest kind _ _ _ periodic =>
        if periodic then
          let s := if o'.progress % (coverage s).length = 0 then setSerac s { s.serac with lastPass := nowN s } else s
          suspendPoint s o.pid
        else if pass then longDone s o' else longFail s o' kind
      | _ => s

/-! ### The commands -/

/-- The operation a LONG_* command names, oldest first (R240). -/
def longTarget (s : State) (e : Ent) (w0 : Word) : Option LongOp :=
  s.rime.longs.find? (fun o => !o.own && o.ent.fn == e.fn && o.ent.prio == fld w0 33 32 &&
    o.ent.tag.toNat == fld w0 31 0)

/-- A long operation consumed before the command and not yet begun: the command waits for it (R228). -/
def longAhead (s : State) (p : Pend) : Bool :=
  s.rime.pend.any (fun q => decide (q.id < p.id) && q.proc == 3 && !q.started && q.res.isNone &&
    (q.opcode == 0x10 || decide (0x30 ≤ q.opcode)))

/-- LONG_SUSPEND, LONG_RESUME, LONG_CANCEL (R240). -/
def longCommand (s : State) (e : Ent) (w0 : Word) (op : Nat) : State :=
  match takePend s e op [w0] with
  | none => s
  | some p =>
    if serving s 3 ∧ ¬ longAhead s p then
      match longTarget s e w0 with
      | none => done s p.id 0x0B
      | some o =>
        let ok (t : State) : State := doneR t p.id 0x00 [BitVec.ofNat 64 o.progress]
        if op = 0x20 then
          if o.suspended then ok s
          else updLong (begun s p.id) o.pid (fun o => { o with suspendReqs := o.suspendReqs ++ [p.id] })
        else if op = 0x21 then
          if o.suspended then
            ok (trace (updLong s o.pid (fun o => { o with suspended := false })) 3 0x08 o.ent.tag.toNat 0)
          else ok s
        else if o.kind = .scrub then done s p.id 0x09
        else
          let o' := { o with cancelReqs := o.cancelReqs ++ [p.id], cancelled := true }
          let s := updLong (begun s p.id) o.pid (fun _ => o')
          if o.suspended then longCancelled s o' else s
    else s

def execLongSuspend (e : Ent) (w0 : Word) (s : State) : Result := .next (longCommand s e w0 0x20)
def execLongResume (e : Ent) (w0 : Word) (s : State) : Result := .next (longCommand s e w0 0x21)
def execLongCancel (e : Ent) (w0 : Word) (s : State) : Result := .next (longCommand s e w0 0x22)

/-- A long operation of a consumed entry begins, or completes as `f` says. -/
def longEntry (s : State) (e : Ent) (opcode : Nat) (ws : List Word) (f : State → Pend → State) : State :=
  match takePend s e opcode ws with
  | some p => if serving s 3 then f s p else s
  | none => s

/-- MEM_FILL (R176, R239). -/
def execMemFill (e : Ent) (base len : Nat) (pattern w3 : Word) (s : State) : Result :=
  .next (longEntry s e 0x30 [BitVec.ofNat 64 base, BitVec.ofNat 64 len, pattern, w3] (fun s p =>
    longBegin s p (.memFill base len pattern (if bit w3 3 then fld w3 2 0 else 7))))

/-- SELFTEST (R270). -/
def execSelftest (e : Ent) (w0 w1 w2 : Word) (s : State) : Result :=
  .next (longEntry s e 0x31 [w0, w1, w2] (fun s p =>
    longBegin s p (.selftest (fld w0 3 0) (fld w0 23 8) (fld w1 47 0) (fld w2 31 0) (bit w0 4))))

/-- FW_STAGE (R406): the slot stands empty from the first write on. -/
def execFwStage (e : Ent) (addr len : Nat) (slot : Nat) (s : State) : Result :=
  .next (longEntry s e 0x32 [BitVec.ofNat 64 addr, BitVec.ofNat 64 len, BitVec.ofNat 64 slot] (fun s p =>
    if (rdb s Reg.FW_STATUS 4 ∧ (s.power.actSlot.map (·.1)) = some slot) ∨ s.power.boot = .recovery then done s p.id 0x0A
    else if 33554432 < len then doneD (slotEmpty s slot) p.id 0x01 0x03
    else if b2n (rdb s Reg.FW_STATUS 0) = slot then doneD (slotEmpty s slot) p.id 0x01 0x04
    else longBegin (slotEmpty s slot) p (.fwStage addr len slot)))

/-- Nothing else is in flight on any instance (R241). -/
def aloneInFlight (s : State) (p : Pend) : Bool :=
  s.rime.longs.isEmpty && !s.rime.pend.any (fun q => q.id != p.id && q.res.isNone &&
    (q.opcode == 0x01 || (q.proc == 3 && (q.opcode == 0x10 || decide (0x30 ≤ q.opcode)))))

/-- TENANT_SCRUB (R323-R325): refused BUSY while an image is loaded or other work is in flight. -/
def execTenantScrub (e : Ent) (s : State) : Result :=
  .next (longEntry s e 0x33 [] (fun s p =>
    if s.rime.images.isEmpty ∧ aloneInFlight s p then
      longBegin (setTenant s 2 (rd s Reg.SEC_TENANT_ID)) p .scrub
    else done s p.id 0x0A))

/-- KV_COMPACT (R161). -/
def execKvCompact (e : Ent) (mi pages : Nat) (s : State) : Result :=
  .next (longEntry s e 0x34 [BitVec.ofNat 64 mi, BitVec.ofNat 64 pages] (fun s p =>
    longBegin s p (.kvCompact mi pages)))

/-- LONG_OP_POINT (R239, R240): the operation reaches its next point. A scrub on the device's own account goes by the
physical function's number and tag 0. -/
def longOpPoint (s : State) (e : Ent) (flashErr : Bool) : State :=
  match s.rime.longs.find? (fun o => o.ent == e && !o.suspended) with
  | none => s
  | some o =>
    if serving s 3 then
      match o.kind with
      | .memFill base len v cls => fillPoint s o base len v cls
      | .modelLoad id addr dest bytes nonce key => loadPoint s o id addr dest bytes nonce key
      | .fwStage addr len slot => stagePoint s o addr len slot flashErr
      | .kvCompact mi pages => compactPoint s o mi pages
      | .scrub => scrubPoint s o
      | .selftest _ _ _ _ _ => if s.serac.slice.isNone then suspendPoint s o.pid else s
    else s

def execLongOpPoint (e : Ent) (flashErr : Bool) (s : State) : Result := .next (longOpPoint s e flashErr)

/-- SELFTEST_SLICE_START (R271). -/
def execSelftestSliceStart (s : State) : Result := .next (sliceStart s)

/-- SELFTEST_SLICE_END (R273). -/
def execSelftestSliceEnd (pass : Bool) (s : State) : Result := .next (sliceEnd s pass)

/-- SELFTEST_AGE_CHECK (R273): SERAC_ST_AGE, and SELFTEST_LATE beyond the coverage interval. -/
def execSelftestAgeCheck (s : State) : Result :=
  .next (let age := (nowN s - s.serac.lastPass) / 1000000
    let s := wrn s Reg.SERAC_ST_AGE (if age < 2 ^ 32 then age else 2 ^ 32 - 1)
    match selftestOp s with
    | some o => (match o.kind with
      | .selftest _ _ _ interval true =>
        if interval * 1000 < age then notify (seracFlag s 4) "safety application" "SELFTEST_LATE" age else s
      | _ => s)
    | none => s)

end Sys2Proof.Machine
end

