-- ==== Sys2Proof/Machine/Rings.lean ====
section
/-! DEFINITION. Rings and watchdogs: doorbells (R216, R217), opening an instance (R220), the consumption and checks of
an entry (R222, R224, R228, R241), MSI-X (R312), the counts (R238), log entries (R243), and the watchdog restart of a
Rime processor (R244-R249). -/

namespace Sys2Proof.Machine

/-! ### Doorbells (R215-R217) -/

/-- SQ_DOORBELL (R216): the host driver writes HIF_SQ_TAIL; a pair whose tail runs more than a ring ahead stops. -/
def execSqDoorbell (fn prio : Nat) (val : BitVec 32) (s : State) : Result :=
  .next (pairCheck (regWrite s (.host fn) (Reg.HIF_SQ_TAIL fn prio) 32 (val.zeroExtend 64)) fn prio)

/-- CQ_HEAD_WRITE (R216): the host driver writes HIF_CQ_HEAD; a pair whose head passes the tail stops. -/
def execCqHeadWrite (fn prio : Nat) (val : BitVec 32) (s : State) : Result :=
  .next (pairCheck (regWrite s (.host fn) (Reg.HIF_CQ_HEAD fn prio) 32 (val.zeroExtend 64)) fn prio)

/-! ### Opening (R220) -/

/-- Why an OPEN is refused (Table 08.4), if it is. -/
def openReason (s : State) (fn : Nat) : Option Nat :=
  let recs := (getFn s fn).recs
  let major := rdf s (Reg.HIF_HOST_VER fn) 15 8
  let minor := rdf s (Reg.HIF_HOST_VER fn) 7 0
  if scrubOn s ∨ rdf s Reg.SEC_TENANT 1 0 = 2 then some 5
  else if recs.isEmpty ∨ instState s fn = 0 then some 3
  else if recs.any (fun r => !r.2.valid) then some 4
  else if major = 3 then (if minor ≤ rdf s (Reg.HIF_FW_VER fn) 7 0 then none else some 2)
  else if major = 2 then (if minor ≤ rdf s (Reg.HIF_FW_VER fn) 23 16 then none else some 2)
  else some 1

/-- The instance opens: OPEN sets, its version holds until its reset. -/
def openInst (s : State) (fn : Nat) : State :=
  let v := (rdf s (Reg.HIF_HOST_VER fn) 15 8, rdf s (Reg.HIF_HOST_VER fn) 7 0)
  let s := updFn s fn (fun f => { f with version := some v })
  let s := setInst (wrb s (Reg.HIF_STATUS fn) 0 true) fn 2
  forUpTo 4 (fun p t => pairCheck t fn p) s

/-- INSTANCE_OPEN (R220): firmware answers HIF_CTL.OPEN with OPEN, or with REFUSED and REASON. -/
def execInstanceOpen (fn : Nat) (s : State) : Result :=
  .next (if serving s 0 ∧ instState s fn ≤ 1 then
    match openReason s fn with
    | some r => hwSetBit (wrf s (Reg.HIF_STATUS fn) 23 16 r) (Reg.HIF_STATUS fn) (Reg.HIF_EVCNT fn) 1
    | none => openInst s fn
  else s)

/-! ### The checks of an entry (R222, R224, R241, Tables 08.7, 08.11) -/

/-- The operand words of an opcode with the bits each may have set; nothing for an undefined opcode. -/
def operandMasks (op : Nat) (timed : Bool) : Option (List Nat) :=
  let any := 2 ^ 64 - 1
  match op with
  | 0x00 => some []
  | 0x01 => some [any, if timed then any else 0, any, any, any, any, any]
  | 0x02 => some [2 ^ 34 - 1]
  | 0x10 => some [any, 2 ^ 32 - 1]
  | 0x11 => some [any]
  | 0x20 => some [2 ^ 34 - 1]
  | 0x21 => some [2 ^ 34 - 1]
  | 0x22 => some [2 ^ 34 - 1]
  | 0x30 => some [any, any, any, 15]
  | 0x31 => some [0xFFFF1F, 2 ^ 48 - 1, 2 ^ 32 - 1]
  | 0x32 => some [any, any, 1]
  | 0x33 => some []
  | 0x34 => some [0xFFFF, 0x7FFFFF]
  | 0x40 => some [0xFFFF, any]
  | 0x41 => some [0xFFFF]
  | 0x42 => some [0xFFFF, any, 0x1FFF]
  | 0x43 => some [0xFFFF, any, 0x1FFF]
  | 0x44 => some [0xFFFF]
  | 0x50 => some []
  | _ => none

/-- Opcodes and flags an instance opened at major 2 does not have (Table 08.7). -/
def notMajor2 (op : Nat) (timed : Bool) : Bool :=
  timed || decide (0x20 ≤ op ∧ op ≤ 0x22) || decide (0x31 ≤ op ∧ op ≤ 0x34) || op == 0x50

/-- No bit is set outside the operands. -/
def operandsIn (ms : List Nat) (ws : List Word) : Bool :=
  (List.range 7).all (fun k => (ws.getD k 0) &&& ~~~ BitVec.ofNat 64 (ms.getD k 0) == 0)

/-- The end of the run of bytes from `a` that lie in the given regions. -/
def coveredTo (rs : List Region) : Nat → Nat → Nat
  | 0, a => a
  | k + 1, a => match rs.find? (fun r => decide (r.base ≤ a) && decide (a < r.base + r.size)) with
    | some r => coveredTo rs k (r.base + r.size)
    | none => a

/-- Does a range lie within DRAM regions of a function's own images, SAFETY ones only where `safe`? -/
def inRegions (s : State) (fn base len : Nat) (safe : Bool) : Bool :=
  let rs := (s.rime.images.filter (fun i => i.owner == fn && (!safe || i.safety))).flatMap (·.regions)
  decide (base + len ≤ coveredTo rs rs.length base)

/-- Operand ranges that a mask does not say (R176, R270, R359). -/
def operandRange (s : State) (fn op : Nat) (timed : Bool) (ws : List Word) : Bool :=
  let w (k : Nat) : Word := ws.getD k 0
  match op with
  | 0x01 => !timed || decide ((w 1).toNat ≤ nowN s + 1000000000000)
  | 0x30 => fld (w 0) 11 0 == 0 && fld (w 1) 11 0 == 0 &&
      (!bit (w 3) 3 || fld (w 3) 2 0 != 0 || inRegions s fn (w 0).toNat (w 1).toNat true)
  | 0x31 =>
    let kind := fld (w 0) 3 0
    let unit := fld (w 0) 23 8
    if bit (w 0) 4 then decide (kind ≤ 5 ∧ 1 ≤ (w 2).toNat ∧ (w 2).toNat ≤ 86400)
    else match kind with
      | 0 => decide (unit < 128)
      | 1 => decide (unit < 16)
      | 2 => decide (unit < 4)
      | 3 => fld (w 1) 11 0 == 0 && fld (w 2) 11 0 == 0 &&
          decide (dramBase ≤ (w 1).toNat ∧ (w 1).toNat + (w 2).toNat ≤ dramBase + 0x2000000000)
      | 4 => decide (unit < 8 ∧ (w 1).toNat < 256)
      | 5 => true
      | _ => false
  | _ => true

/-- The model instance or sequence a Firn command names: its owner, or none where it is not loaded. -/
def miOwner (s : State) (w : Word) : Option Nat := (Tab.find s.firn.mis w.toNat).map (·.owner)

/-- What a command names and does not have, or may not act on (R222, R146, Tables 08.7, 08.11). -/
def namedStatus (s : State) (fn op : Nat) (ws : List Word) : Option Nat :=
  let w (k : Nat) : Word := ws.getD k 0
  let own (o : Option Nat) : Option Nat := match o with
    | none => some 0x07
    | some x => if x = fn then none else some 0x09
  let seq : Option Nat :=
    let e := Tab.get {} s.firn.tabs.seqs (w 0).toNat
    if e.state ≠ 0 ∧ e.owner ≠ fn then some 0x09 else none
  match op with
  | 0x01 => (match imgOf s (w 0) with
    | some i => if i.owner = fn then none else some 0x07
    | none => some 0x07)
  | 0x11 => (match imgOf s (w 0) with
    | some i => if i.owner = fn then none else some 0x07
    | none => some 0x07)
  | 0x30 =>
    let base := (w 0).toNat
    let len := (w 1).toNat
    let ok : Bool :=
      if fn = 16 then decide (watermark s ≤ base ∧ base + len ≤ dramBase + 0x2000000000) else inRegions s fn base len false
    if ok then none else some 0x09
  | 0x31 => if fn = 16 then none else some 0x09
  | 0x32 => if fn = 16 then none else some 0x09
  | 0x33 => if fn = 16 then none else some 0x09
  | 0x34 => own (miOwner s (w 0))
  | 0x40 => own (miOwner s (w 0))
  | 0x42 => own (miOwner s (w 0))
  | 0x41 => seq
  | 0x43 => seq
  | 0x44 => seq
  | _ => none

/-- The opcodes that begin a long operation (Table 08.11). -/
def isLong (op : Nat) : Bool := op == 0x10 || decide (0x30 ≤ op ∧ op ≤ 0x34)

/-- The limits of R241. -/
def limitStatus (s : State) (op : Nat) : Option Nat :=
  let waiting := s.rime.pend.filter (fun p => isLong p.opcode && !p.started && p.res.isNone)
  let n := s.rime.longs.length + waiting.length
  let one (k : LongOp → Bool) : Bool := s.rime.longs.any k || waiting.any (fun p => p.opcode == op)
  if isLong op ∧ 8 ≤ n then some 0x0A
  else if op = 0x31 ∧ one (fun o => match o.kind with
      | .selftest _ _ _ _ _ => true
      | _ => false) then some 0x0A
  else if op = 0x32 ∧ one (fun o => match o.kind with
      | .fwStage _ _ _ => true
      | _ => false) then some 0x0A
  else if op = 0x33 ∧ one (fun o => o.kind == .scrub) then some 0x0A
  else none

/-- The entry is a LONG_* command of the scrub in flight (R241). -/
def ofScrub (s : State) (e : Ent) (op : Nat) (w0 : Word) : Bool :=
  decide (0x20 ≤ op ∧ op ≤ 0x22) && (match longTarget s e w0 with
    | some o => o.kind == .scrub
    | none => false)

/-- The status an entry completes with at its consumption, if its checks end it there: word 0, its operand words, and
whether any word of it was poisoned. -/
def entryStatus (s : State) (e : Ent) (w0 : Word) (ws : List Word) (poison : Bool) : Option Nat :=
  let op := fld w0 7 0
  let timed := bit w0 8 && op == 0x01
  match operandMasks op timed with
  | none => some 0x08
  | some ms =>
    if poison ∨ fld w0 31 16 ≠ 0 ∨ fld w0 15 9 ≠ 0 ∨ (bit w0 8 ∧ op ≠ 0x01) ∨ ¬ operandsIn ms ws ∨
        (major2 s e.fn ∧ notMajor2 op timed) ∨ ¬ operandRange s e.fn op timed ws then some 0x08
    else if scrubOn s ∧ ¬ ofScrub s e op (ws.getD 0 0) then some 0x0A
    else match namedStatus s e.fn op ws with
      | some st => some st
      | none => match limitStatus s op with
        | some st => some st
        | none => if op = 0x00 then some 0x00 else none

/-! ### Consumption (R216, R218, R228) -/

/-- Entries of a pair consumed and not completed. -/
def pairOut (s : State) (fn prio : Nat) : Nat :=
  (s.rime.pend.filter (fun p => p.ent.fn == fn && p.ent.prio == prio)).length

/-- May firmware take an entry from the pair (R216-R218)? -/
def pairReady (s : State) (fn prio : Nat) : Bool :=
  match ringOf s fn prio with
  | none => false
  | some r =>
    instState s fn == 2 && r.valid && !pairStopped s fn prio &&
      rdn s (Reg.HIF_SQ_TAIL fn prio) != rdn s (Reg.HIF_SQ_HEAD fn prio) &&
      decide (pairOut s fn prio + ctrDiff (rdn s (Reg.HIF_CQ_TAIL fn prio)) (rdn s (Reg.HIF_CQ_HEAD fn prio))
        < 2 ^ r.cqLog2)

/-- The next pair of the pass that an entry is taken from. -/
def nextPair (s : State) : Option Nat :=
  ((List.range 68).map (fun i => (s.rime.passPos + i) % 68)).find? (fun k => pairReady s (passPair k).1 (passPair k).2)

/-- The entry at the head of a pair's submission ring, copied whole; its checks; its record. -/
def consume (s : State) (k : Nat) (r : RingRec) : State :=
  let (fn, prio) := passPair k
  let c := rdn s (Reg.HIF_SQ_HEAD fn prio)
  let (pw, s) := busReadWords 8 s (fwWho 0) (fnLabel fn) (r.sqBase + c % 2 ^ r.sqLog2 * 64)
  let ws := pw.map (·.v)
  let w0 := ws.getD 0 0
  let op := fld w0 7 0
  let e : Ent := ⟨fn, prio, BitVec.ofNat 32 (fld w0 63 32)⟩
  let st := entryStatus s e w0 (ws.drop 1) (pw.any (·.p))
  let run := op = 0x01 ∧ st.isNone
  let long := isLong op || decide (0x20 ≤ op ∧ op ≤ 0x22)
  let id := s.rime.nextId
  let p : Pend :=
    { id := id, ent := e, opcode := op, timed := bit w0 8, words := ws.drop 1, time := nowN s,
      job := if run then s.rime.nextSerial else 0, proc := if long then 3 else 0, started := false, res := none }
  let s := { s with rime := { s.rime with
    pend := s.rime.pend ++ [p], nextId := id + 1, passPos := (k + 1) % 68,
    nextSerial := if run then s.rime.nextSerial + 1 else s.rime.nextSerial } }
  let s := trace s 0 0x01 (fn + prio * 256) e.tag.toNat
  let s := if op = 0x01 then updFn s fn (fun f => { f with submitted := f.submitted + 1 }) else s
  let s := incWrap s (Reg.HIF_SQ_HEAD fn prio) 32 1
  match st with
  | some x => done s id x
  | none => s

/-- ENTRY_CONSUME (R228): firmware takes the next entry in pass order. -/
def execEntryConsume (s : State) : Result :=
  .next (if serving s 0 then
    match nextPair s with
    | some k => (match ringOf s (passPair k).1 (passPair k).2 with
      | some r => consume s k r
      | none => s)
    | none => s
  else s)

/-- QUERY_COUNTS (R238). -/
def execQueryCounts (e : Ent) (s : State) : Result :=
  .next (match takePend s e 0x50 [] with
    | none => s
    | some p =>
      if serving s 0 then
        let f := getFn s e.fn
        doneR s p.id 0x00 [f.submitted, f.completed, f.refused, f.fellBack]
      else s)

/-! ### MSI-X (R312) -/

/-- MSIX_SEND (R312): a message that is due leaves, or stands in the pending-bit array while its vector is masked or
the function may not master the bus. -/
def execMsixSend (fn vec : Nat) (s : State) : Result :=
  .next (if s.rime.msixPend.contains (fn, vec) then
    let last := Tab.find s.rime.msixLast (fn * 2048 + vec)
    if rdb s (Reg.MSIX_CTL fn vec) 0 ∨ ¬ (getFn s fn).bme then wrb s (Reg.MSIX_PBA fn) vec true
    else if (match last with
        | some t => decide (nowN s < t + 1000)
        | none => false) = true then s
    else
      let s := { s with rime := { s.rime with
        msixPend := s.rime.msixPend.filter (· != (fn, vec)),
        msixLast := Tab.set s.rime.msixLast (fn * 2048 + vec) (nowN s) } }
      emit (wrb s (Reg.MSIX_PBA fn) vec false) (.msix fn vec)
  else s)

/-! ### The log ring (R243) -/

/-- LOG_ENTRY (R243): an entry of a running processor reaches the hub log port. -/
def execLogEntry (proc lvl point : Nat) (arg0 arg1 : Word) (s : State) : Result :=
  .next (if live s proc then logEntry s proc lvl point arg0 arg1 else s)

/-! ### Watchdogs (R244-R249) -/

/-- The watchdog's count reloaded from TIMEOUT. -/
def wdtReload (s : State) (p : Nat) : State := wrn s (Reg.RIME_WDT_LEFT p) (rdf s (Reg.RIME_WDT_CTL p) 23 0)

/-- WDT_KICK (R245). -/
def execWdtKick (who : Requester) (p : Nat) (val : BitVec 32) (s : State) : Result :=
  .next (if mayWrite s who .rime p 0x18 ∧ val = 0x4B1C ∧ ¬ rdb s (Reg.RIME_STATUS p) 3 then wdtReload s p else s)

/-- FW_EPOCH set in every block and in every function's page (R245, Table 08.14). -/
def setEpoch (s : State) (e : Nat) : State :=
  let s := forUpTo 8 (fun p t => wrn t (Reg.RIME_EPOCH p) e) s
  forUpTo 17 (fun fn t => wrn t (Reg.HIF_FW_EPOCH fn) e) s

/-- FW_EPOCH increments; EPOCH sets in every open instance (Table 08.16). -/
def bumpEpoch (s : State) : State :=
  let s := setEpoch s ((fwEpoch s + 1) % 2 ^ 32)
  allFns.foldl (fun t fn =>
    if rdb t (Reg.HIF_STATUS fn) 0 then hwSetBit t (Reg.HIF_STATUS fn) (Reg.HIF_EVCNT fn) 3 else t) s

/-- The enclaves bound to a processor end with its restart (R334). -/
def enclLost (s : State) (p : Nat) : State :=
  forUpTo 8 (fun n t =>
    if rdb t (Reg.ENCL_A n) 51 ∧ rdf t (Reg.ENCL_A n) 50 48 = p then
      hwSetBit (enclDestroy t n) Reg.SEC_STATUS Reg.SEC_EVCNT 2
    else t) s

/-- A processor's watchdog reaches 0 (Table 08.16 step 1, R249). -/
def watchdogFire (s : State) (p : Nat) (pc : Word) : State :=
  let past := (Tab.get [] s.rime.expiries p).filter (fun t => decide (nowN s < t + 1000000000))
  let s := { s with rime := { s.rime with expiries := Tab.set s.rime.expiries p (past ++ [nowN s]) } }
  let s := wdtReload (wr s (Reg.RIME_LAST_PC p) pc) p
  let s := hwSetBit (wrb s (Reg.RIME_STATUS p) 0 false) (Reg.RIME_STATUS p) (Reg.RIME_EVCNT p) 2
  if 2 ≤ past.length then
    detect (wrb (wrb s (Reg.RIME_STATUS p) 1 false) (Reg.RIME_STATUS p) 3 true) .package 0 .fe 0x85 0
  else
    let first := ¬ rdb s (Reg.RIME_STATUS p) 1
    let s := iceAdd (incSat (wrb s (Reg.RIME_STATUS p) 1 true) (Reg.RIME_RESTARTS p) 16 1) (0x98 + 4 * p) 32 1
    let s := if first then { s with rime := { s.rime with cut := Tab.set s.rime.cut p s.rime.nextId } } else s
    let s := notify (seracFlag (bumpEpoch s) 8) "Serac" "RIME_RESTART" p
    let s := enclLost s p
    { s with sec := { s.sec with procs := Tab.del s.sec.procs p } }

/-- WATCHDOG_EXPIRY (R245): the count of processor `p` has reached 0. -/
def execWatchdogExpiry (p : Nat) (pc : Word) (s : State) : Result :=
  .next (if rdn s (Reg.RIME_WDT_LEFT p) = 0 ∧ ¬ rdb s (Reg.RIME_STATUS p) 3 ∧ (booted s ∨ rdb s (Reg.RIME_STATUS p) 1) then
    watchdogFire s p pc
  else s)

/-! ### The end of a restart (R246, R248, Table 08.17) -/

/-- The kernels of the domain have ended (Table 08.16 step 4). -/
def domainIdle (s : State) (p : Nat) : Bool :=
  if p = 0 then (List.range 128).all (fun n => !running s n)
  else if 4 ≤ p then
    (List.range 32).all (fun k => !running s (32 * (p - 4) + k)) &&
      s.rime.jobs.all (fun j => !j.phase.holds || (match jobImg s j with
        | some i => !(imgDies i).contains (p - 4) || i.cores.all (fun n => !running s n)
        | none => true))
  else true

/-- A job ends INTERRUPTED_UNKNOWN: what firmware kept of it goes, with its context. -/
def dropJob (s : State) (j : Job) : State :=
  let s := match jobImg s j with
    | some i =>
      let s := if j.phase.holds then stopClusters s i else s
      { s with rime := { s.rime with
        ctx := s.rime.ctx.filter (fun e => !((ctxKeys i).contains e.1 && Tab.get 0 s.rime.lastJob e.1 == j.serial)) } }
    | none => s
  setJobs s (s.rime.jobs.filter (fun k => k.serial != j.serial))

/-- INTERRUPTED_UNKNOWN for one entry, with the kernel its job stood at. -/
def interrupted (s : State) (p : Pend) (results : List Word) : State :=
  let k := match jobOf s p.job with
    | some j => if j.started.isSome then j.kernel else 0xFFFF
    | none => 0xFFFF
  let s := match jobOf s p.job with
    | some j => if p.opcode = 0x01 then dropJob s j else s
    | none => s
  finish s p.id { status := 0x05, kernel := k, results := results }

/-- Processor 0's domain: every job and command in flight; a FIRN_STEP that committed completes with its result, one
that has not stays; what other processors' operations ended with meanwhile is written. -/
def restart0 (s : State) : State :=
  let s := s.rime.pend.foldl (fun t p =>
    match p.res with
    | some x => if p.proc ≠ 0 ∨ p.opcode = 0x40 then finish t p.id x else interrupted t p []
    | none => if p.proc ≠ 0 ∨ p.opcode = 0x40 then t else interrupted t p []) s
  (List.range 68).foldl (fun t k => pairCheck t (passPair k).1 (passPair k).2) s

/-- Processor 3's domain: long operations end with the effects of a cancel; a scrub starts again. -/
def restart3 (s : State) : State :=
  let cut := Tab.get 0 s.rime.cut 3
  let s := s.rime.longs.foldl (fun t o => if o.kind = .scrub then t else trace (longUndo t o) 3 0x08 o.ent.tag.toNat 2) s
  let old := s.rime.longs
  let s := setLongs s ((old.filter (fun o => o.kind == .scrub)).map (fun o =>
    { o with progress := 0, suspendReqs := [], cancelReqs := [] }))
  let s := s.rime.pend.foldl (fun t p =>
    if p.proc = 3 ∧ p.res.isNone ∧ p.id < cut ∧ ¬ (t.rime.longs.any (fun o => o.pid == p.id)) then
      interrupted t p (match old.find? (fun o => o.pid == p.id) with
        | some o => [BitVec.ofNat 64 o.progress]
        | none => [])
    else t) s
  let held := s.rime.logHeld
  held.foldl logPut { s with rime := { s.rime with logHeld := [] } }

/-- A die controller's domain: jobs with a kernel of the die in flight. -/
def restartDie (s : State) (d : Nat) : State :=
  s.rime.jobs.foldl (fun t j =>
    match jobImg t j, pendOf t j.pid with
    | some i, some p => if j.phase.holds ∧ (imgDies i).contains d then
        j.cancels.foldl (fun u c => done u c 0x0B) (interrupted t p []) else t
    | _, _ => t) s

/-- RIME_RESTART_COMPLETE (R248): completions are written, the domain unfreezes, RESTART is logged. -/
def restartComplete (s : State) (p : Nat) : State :=
  let s := wrb (wrb s (Reg.RIME_STATUS p) 1 false) (Reg.RIME_STATUS p) 0 true
  let s := if p = 0 then restart0 s else if p = 3 then restart3 s else if 4 ≤ p then restartDie s (p - 4) else s
  let s := logEntry s p 0 0x0A (BitVec.ofNat 64 (fwEpoch s)) (rd s (Reg.RIME_LAST_PC p))
  schedule s

end Sys2Proof.Machine
end

