-- ==== Sys2Proof/Machine/Snow.lean ====
section
/-! DEFINITION. Snowline (R348-R352), compare units (R353-R356), capture (R357), the time-triggered kernel queues
(R359, R360), and the latched halves of a 64-bit register (R8). -/

namespace Sys2Proof.Machine

/-! ### Register reads by halves (R8) -/

/-- A read of the low half of a 64-bit register: the high half is latched. -/
def lowRead (s : State) (who : Requester) (a : Nat) : State :=
  let (v, s) := regRead s who a 0
  emit { s with latch := Tab.set s.latch a (v >>> 32) } (.readData a (v &&& 0xFFFFFFFF#64) false)

/-- A read of a register, or of the high half of one: a latched half is returned once. -/
def wholeRead (s : State) (who : Requester) (a : Nat) (arrive : Word) : State :=
  match regKey a with
  | some (k, true) =>
    (match Tab.find s.latch k with
      | some h => emit { s with latch := Tab.del s.latch k } (.readData a h false)
      | none =>
        let (v, s) := regRead s who k 0
        emit s (.readData a (v >>> 32) false))
  | _ =>
    let (v, s) := regRead s who a arrive
    emit s (.readData a v false)

/-! ### Kernel queues (R360) -/

/-- (int32)(a - b) ≥ 0 on 32-bit numbers. -/
def reached (a b : Nat) : Bool := decide (ctrDiff a b < 2 ^ 31)

/-- Cores a mask names. -/
def maskCores (m : BitVec 128) : List Nat := (List.range 128).filter (fun n => m.getLsbD n)

/-- The job prepared on the cores of an entry. -/
def preparedJob (s : State) (e : TtqEnt) : Option Job :=
  match (maskCores e.mask).head? with
  | none => none
  | some n => (jobOn s n).filter (fun j => j.phase == .prepared)

/-- A flag of a kernel queue. -/
def ttqFlag (s : State) (q i : Nat) : State := hwSetBit s (Reg.TTQ_STATUS q) Reg.SNOW_EVCNT i

/-- A due entry fires: START on every named core, or MISS where one runs or is out of service. -/
def ttqFire (s : State) (q : Nat) (e : TtqEnt) (late : Bool) : State :=
  let cs := maskCores e.mask
  let job := preparedJob s e
  if cs.any (fun n => running s n || !(getCore s n).inService) then
    let s := notify (ttqFlag s q 8) "processor 0" "MISS" q
    match job with
    | some j => updJob s j.serial (fun j => { j with phase := .waiting, missed := true })
    | none => s
  else
    let s := if late then ttqFlag s q 9 else s
    match job with
    | none => cs.foldl startCore s
    | some j => match jobImg s j with
      | none => cs.foldl startCore s
      | some i =>
        let s := cs.foldl startCore (kernelStarted s j i .running)
        if serving s 0 ∧ judged s j i (wcetRem i 0) then
          match jobOf s j.serial with
          | some k => schedule (switchJob s k 1)
          | none => s
        else s

/-- Every due entry of a queue fires, in push order. -/
def ttqRelease (s : State) (q : Nat) (step : Bool) : State :=
  let due (e : TtqEnt) : Bool := reached (now32 s) e.target.toNat
  let l := Tab.get [] s.snow.ttq q
  let s' := { s with snow := { s.snow with ttq := Tab.set s.snow.ttq q (l.filter (fun e => !due e)) } }
  (l.filter due).foldl (fun t e => ttqFire t q e (e.late || step)) s'

/-- A push of what TTQ_TARGET and the masks hold; a full queue refuses it. -/
def ttqPushOp (s : State) (q : Nat) : State :=
  let l := Tab.get [] s.snow.ttq q
  if 16 ≤ l.length then ttqFlag s q 10
  else
    let t := rdn s (Reg.TTQ_TARGET q)
    let m := rdn s (Reg.TTQ_MASK0 q) + rdn s (Reg.TTQ_MASK1 q) * 2 ^ 32 + rdn s (Reg.TTQ_MASK2 q) * 2 ^ 64
      + rdn s (Reg.TTQ_MASK3 q) * 2 ^ 96
    let e : TtqEnt := ⟨BitVec.ofNat 32 t, BitVec.ofNat 128 m, reached (now32 s) t⟩
    { s with snow := { s.snow with ttq := Tab.set s.snow.ttq q (l ++ [e]) } }

/-- TTQ_PUSH (R360): a write of TTQ_CTL.PUSH. -/
def execTtqPush (who : Requester) (q : Nat) (s : State) : Result :=
  .next (if mayWrite s who .snow 0 (0x628 + q * 0x40) then ttqPushOp s q else s)

/-- May the job's first kernel be placed now: its clusters free, no job that goes before it needs one of them, and
START_TIME less than 1 s away (R359)? -/
def mayPrepare (s : State) (j : Job) (i : Image) : Bool :=
  timedWait j && j.phase == .waiting && eligible s j && homeFree s i && i.home.all (chansIdle s) &&
    !((candidates s).takeWhile (fun k => k.serial != j.serial)).any (fun k => (match jobImg s k with
      | some x => x.home.any i.home.contains
      | none => false))

/-- The registers of a push: the low word of START_TIME and the cores of the image. -/
def ttqWrite (s : State) (q : Nat) (start : Word) (cores : List Nat) : State :=
  let m := sumBy (fun n => 2 ^ n) cores
  let s := wrn s (Reg.TTQ_TARGET q) (start.toNat % 2 ^ 32)
  let s := wrn (wrn s (Reg.TTQ_MASK0 q) (m % 2 ^ 32)) (Reg.TTQ_MASK1 q) (m / 2 ^ 32 % 2 ^ 32)
  wrn (wrn s (Reg.TTQ_MASK2 q) (m / 2 ^ 64 % 2 ^ 32)) (Reg.TTQ_MASK3 q) (m / 2 ^ 96 % 2 ^ 32)

/-- TIMED_JOB_PREPARE (R359): the cores of the first kernel are made ready and one entry is pushed into kernel queue
p; a full queue leaves the job waiting. -/
def timedPrepare (s : State) (j : Job) (i : Image) : State :=
  match i.kernels[0]? with
  | none => s
  | some k =>
    let q := j.ent.prio
    let s := prepKernel (bringIn s j i) j i k
    let full := decide (16 ≤ (Tab.get [] s.snow.ttq q).length)
    let s := ttqPushOp (ttqWrite s q (j.timed.getD 0) i.cores) q
    if full then s else updJob s j.serial (fun j => { j with phase := .prepared })

def execTimedJobPrepare (job : Nat) (s : State) : Result :=
  .next (match jobOf s job with
    | none => s
    | some j => match jobImg s j with
      | none => s
      | some i => if mayPrepare s j i then timedPrepare s j i else s)

/-! ### Compare units (R353-R356) -/

/-- Pins of one kind that a unit drives: pulses and toggles (Table 13.10). -/
def firePins (s : State) (u : Nat) (fsync : Bool) : State :=
  forUpTo 16 (fun k t =>
    let cfg := if fsync then Reg.FSYNC_CFG k else Reg.TRIG_CFG k
    let mode := rdf t cfg 1 0
    if rdf t cfg 6 3 = u ∧ mode = 2 then emit t (.pulse fsync k (rdf t (Reg.CMP_CTL u) 23 8) false)
    else if rdf t cfg 6 3 = u ∧ mode = 3 then
      let p := t.pins
      let t := { t with pins := if fsync then { p with fsync := Tab.upd false p.fsync k (!·) }
          else { p with trig := Tab.upd false p.trig k (!·) } }
      emit t (.pulse fsync k 0 true)
    else t) s

/-- A unit re-targets after firing, or disarms (R354): a periodic one keeps adding periods until its target is
ahead. -/
def retarget (s : State) (u : Nat) : State :=
  if rdb s (Reg.CMP_CTL u) 2 then
    let t := rdf s (Reg.CMP_TARGET u) 31 0
    let p := rdf s (Reg.CMP_TARGET u) 63 32
    let n := ctrDiff (now32 s) t / p
    let s := wrf s (Reg.CMP_TARGET u) 31 0 ((t + (n + 1) * p) % 2 ^ 32)
    if n = 0 then s
    else hwSetBit (wrf s (Reg.CMP_STATUS u) 31 16 (satAdd 16 (rdf s (Reg.CMP_STATUS u) 31 16) n))
      (Reg.CMP_STATUS u) Reg.SNOW_EVCNT 2
  else wrb s (Reg.CMP_STATUS u) 0 false

/-- An armed unit whose target is reached. -/
def unitDue (s : State) (u : Nat) : Bool :=
  rdb s (Reg.CMP_STATUS u) 0 && reached (now32 s) (rdf s (Reg.CMP_TARGET u) 31 0)

/-- A unit fires (R353, R356): its flags, its pins, its request line, and a Frost trigger it is selected for. -/
def unitFire (s : State) (u : Nat) (step : Bool) : State :=
  let late := step || s.snow.late.contains u
  let s := { s with snow := { s.snow with late := NatSet.rem u s.snow.late } }
  let s := wrn s (Reg.CMP_LAST u) (now32 s)
  let s := hwSet s (Reg.CMP_STATUS u) Reg.SNOW_EVCNT (oneBit 1 ||| (if late then oneBit 2 else 0))
  let s := firePins (firePins s u false) u true
  let s := if u < 12 then mvRequestOp s (16 + u) else s
  let s := if rdf s Reg.FROST_CTL 8 5 = u then frostHit s 2 else s
  retarget s u

/-- COMPARE_FIRE (R353-R356, R360): unit `u` fires; units 12-15 release the due entries of their kernel queue. -/
def execCompareFire (u : Nat) (s : State) : Result :=
  .next (let s := if unitDue s u then unitFire s u false else s
    if 12 ≤ u then ttqRelease s (u - 12) false else s)

/-- The requester may write a unit's registers. -/
def cmpWriter (s : State) (who : Requester) (u : Nat) : Bool :=
  mayWrite s who .snow 0 (0x100 + u * 0x20) && !pinHidden s who .snow (0x100 + u * 0x20)

/-- CMP_ARM (R353): a unit armed with a target already reached fires at the next edge and is LATE. -/
def execCmpArm (who : Requester) (u : Nat) (s : State) : Result :=
  .next (if cmpWriter s who u then
    let due := reached (now32 s) (rdf s (Reg.CMP_TARGET u) 31 0)
    let late := if due then NatSet.ins u s.snow.late else NatSet.rem u s.snow.late
    wrb { s with snow := { s.snow with late := late } } (Reg.CMP_STATUS u) 0 true
  else s)

/-- CMP_DISARM (R353). -/
def execCmpDisarm (who : Requester) (u : Nat) (s : State) : Result :=
  .next (if cmpWriter s who u then
    wrb { s with snow := { s.snow with late := NatSet.rem u s.snow.late } } (Reg.CMP_STATUS u) 0 false
  else s)

/-! ### Snowline (R348-R352) -/

/-- A flag of SNOW_STATUS. -/
def snowFlag (s : State) (i : Nat) : State := hwSetBit s Reg.SNOW_STATUS Reg.SNOW_EVCNT i

/-- HOLDOVER is 1: adjustments are ignored. -/
def holdover (s : State) : Bool := rdb s Reg.SNOW_STATUS 1

/-- HOLDOVER changes (R352). -/
def setHoldover (s : State) (on : Bool) : State :=
  if holdover s = on then s
  else notify (snowFlag (wrb s Reg.SNOW_STATUS 1 on) 3) "Serac" "HOLDOVER" (b2n on)

/-- An increment within 4 ns × (1 ± 500 ppm). -/
def incrOk (v : Word) : Bool := decide (0x03FF7CED9169 ≤ v.toNat ∧ v.toNat ≤ 0x040083126E97)

/-- SNOW_INCR_WRITE (R348, R352). -/
def execSnowIncrWrite (who : Requester) (val : Word) (s : State) : Result :=
  .next (if ¬ mayWrite s who .snow 0 0x28 ∨ holdover s then s
    else if incrOk val then wr s Reg.SNOW_INCR val
    else snowFlag s 4)

/-- SNOW_SLEW_WRITE (R350): a new offset replaces what remained of the previous one. -/
def execSnowSlewWrite (who : Requester) (val : Word) (s : State) : Result :=
  .next (if ¬ mayWrite s who .snow 0 0x38 ∨ holdover s then s
    else wrn { s with snow := { s.snow with slewSub := 0 } } Reg.SNOW_SLEW (fld val 31 0))

/-- A step of Snowline: every compare unit and kernel queue sees it in the same cycle (R350, R355). -/
def snowStep (s : State) (d : Word) : State :=
  let s := notify (snowFlag (wr s Reg.SNOW_NS (now s + d)) 2) "Serac" "STEPPED" 0
  let s := forUpTo 16 (fun u t => if unitDue t u then unitFire t u true else t) s
  forUpTo 4 (fun q t => ttqRelease t q true) s

/-- SNOW_STEP_WRITE (R350, R352, R355). -/
def execSnowStepWrite (who : Requester) (val : Word) (s : State) : Result :=
  .next (if ¬ mayWrite s who .snow 0 0x30 ∨ holdover s then s
    else if rdb s Reg.SNOW_CTL 0 ∨ ¬ rdb s Reg.SNOW_STATUS 0 then snowStep s val
    else snowFlag s 4)

/-- RELOCK (R352): a write of SNOW_CTL.RELOCK. -/
def execRelock (who : Requester) (s : State) : Result :=
  .next (if mayWrite s who .snow 0 0 then setHoldover s false else s)

/-- SNOW_NS_READ (R349, R8): a read of the low half, or of all 64 bits, latches the fraction. -/
def execSnowNsRead (who : Requester) (half : Bool) (s : State) : Result :=
  .next (if half then lowRead s who Reg.SNOW_NS else wholeRead s who Reg.SNOW_NS 0)

/-- PTP_SYNC_TIMEOUT (R352): three sync intervals without a Sync, or the announce receipt timeout. -/
def execPtpSyncTimeout (why : PtpLoss) (s : State) : Result :=
  .next (match why with
    | .syncs => setHoldover s true
    | .announce => setHoldover s true)

/-- PTP_MESSAGE (R351, R352): the first lock steps Snowline by the measured offset and sets SYNCED; the offset to the
selected master has been measured, and RELOCK is written; a grandmaster of another identity brings holdover. -/
def execPtpMessage (m : PtpMsg) (s : State) : Result :=
  .next (match m with
    | .lock off =>
      if live s 1 ∧ ¬ rdb s Reg.SNOW_STATUS 0 ∧ ¬ holdover s then
        wrb (snowStep s (BitVec.ofInt 64 off)) Reg.SNOW_STATUS 0 true
      else s
    | .relockMeasured => if live s 1 then setHoldover s false else s
    | .sync _ => s
    | .newGrandmaster => setHoldover s true)

/-- The increment and the slew of one PCLK cycle in 2^-40 ns: a slew absorbs 200 ns per ms (R350). -/
def slewPart (s : State) : Int :=
  let left := toSigned 32 (rdf s Reg.SNOW_SLEW 31 0)
  let step : Nat := 879609302
  let room : Nat := 2 ^ 40 - s.snow.slewSub
  let k : Nat := if left.natAbs = 1 ∧ room < step then room else step
  if left = 0 then 0 else if left < 0 then -(k : Int) else k

/-- One PCLK cycle of Snowline (R348, R350). -/
def snowTick (s : State) : State :=
  let k := slewPart s
  let v : Int := (now s).toNat * 2 ^ 40 + s.snow.sub.toNat + rdn s Reg.SNOW_INCR + k
  let n := (v % (2 ^ 104 : Nat)).toNat
  let sl := s.snow.slewSub + k.natAbs
  let left := toSigned 32 (rdf s Reg.SNOW_SLEW 31 0)
  let s := wrn s Reg.SNOW_NS (n / 2 ^ 40)
  let s := if 2 ^ 40 ≤ sl then wrn s Reg.SNOW_SLEW (ofSigned 32 (if left < 0 then left + 1 else left - 1)) else s
  { s with snow := { s.snow with sub := BitVec.ofNat 40 n, slewSub := sl % 2 ^ 40 } }

/-! ### Capture (R357) -/

/-- CAPTURE_EDGE (R357): an edge CAP_CFG selects is latched; a full FIFO loses it. -/
def execCaptureEdge (c : Nat) (rising : Bool) (s : State) : Result :=
  .next (let edge := rdf s (Reg.CAP_CFG c) 1 0
    if edge = 3 ∨ (edge = 1 ∧ rising) ∨ (edge = 2 ∧ ¬ rising) then
      let l := Tab.get [] s.snow.caps c
      if 8 ≤ l.length then incSat s (Reg.CAP_OVF c) 32 1
      else
        let e : CapEnt := ⟨now s, s.snow.sub.toNat / 2 ^ 24, rising⟩
        mvRequestOp { s with snow := { s.snow with caps := Tab.set s.snow.caps c (l ++ [e]) } } (28 + c)
    else s)

/-- CAP_INFO_READ (R357): the read pops the head entry. -/
def execCapInfoRead (who : Requester) (c : Nat) (s : State) : Result := .next (wholeRead s who (Reg.CAP_INFO c) 0)

end Sys2Proof.Machine
end

