-- ==== Sys2Proof/Machine/Streams.lean ====
section
/-! DEFINITION. The stream front end (R361-R366): CSI-2 frames cropped, scaled and converted into an owner image's
ring of buffers. A frame's words are written when it ends. -/

namespace Sys2Proof.Machine

def getStream (s : State) (k : Nat) : StreamRt := Tab.get {} s.streams.rt k
def setStream (s : State) (k : Nat) (x : StreamRt) : State :=
  { s with streams := { s.streams with rt := Tab.set s.streams.rt k x } }

/-- A flag of a stream. -/
def strFlag (s : State) (k i : Nat) : State := hwSetBit s (Reg.STR_STATUS k) Reg.STR_EVCNT i

/-- A ring of buffers lies in the DRAM regions of its loaded owner (R362). -/
def ringOwned (s : State) (owner : Word) (base len : Nat) : Option Image :=
  (imgOf s owner).filter (fun i => decide (base + len ≤ coveredTo i.regions i.regions.length base))

/-- The owner of a stream whose receiver is on and whose ring its loaded owner holds. -/
def streamOwner (s : State) (k : Nat) (c : StreamCfg) : Option Image :=
  if rdb s Reg.STR_CTL (k / 8) then ringOwned s c.image c.ring (c.pitch * c.count) else none

/-- Bits of a component: 8 for YUV422 (Table 13.3, R363). -/
def dtBits (dt : Nat) : Nat :=
  match dt with
  | 0x2A => 8
  | 0x2B => 10
  | 0x2C => 12
  | 0x2E => 16
  | _ => 8

/-- A supported data type. -/
def dtKnown (dt : Nat) : Bool := [0x2A, 0x2B, 0x2C, 0x2E, 0x1E].contains dt

/-! ### Conversion (R363) -/

/-- A plane as it comes in: width, height, and the component of a line at a column. -/
structure Plane where
  w : Nat
  h : Nat
  x0 : Nat
  y0 : Nat
  ow : Nat
  col : Nat → Nat

/-- The planes of a frame: one, or Y, Cb and Cr of U0 Y0 V0 Y1. -/
def planesOf (c : StreamCfg) : List Plane :=
  let half (x : Nat) : Nat := (x + 1) / 2
  if c.dt = 0x1E then
    [ ⟨c.cropW, c.cropH, c.cropX, c.cropY, c.outW, fun x => 2 * x + 1⟩,
      ⟨half c.cropW, c.cropH, c.cropX / 2, c.cropY, half c.outW, fun x => 4 * x⟩,
      ⟨half c.cropW, c.cropH, c.cropX / 2, c.cropY, half c.outW, fun x => 4 * x + 2⟩ ]
  else [⟨c.cropW, c.cropH, c.cropX, c.cropY, c.outW, fun x => x⟩]

/-- A value divided by a positive number and rounded to FP16. -/
def divFp16 (v : FVal) (k : Nat) : Nat :=
  match v with
  | .fin n m e =>
    let q := m * 2 ^ 64 / k
    let st := if m * 2 ^ 64 % k = 0 then 0 else 1
    fp16.encode .rne (.fin n (2 * q + st) (e - 65))
  | x => fp16.encode .rne x

/-- A pixel value converted: two bytes of FP16, or one of INT8. -/
def convPix (c : StreamCfg) (v : FVal) : List Byte :=
  let b := dtBits c.dt
  if c.fp16 then bytesLE 2 (divFp16 v (2 ^ b - 1))
  else
    let x := match v with
      | .fin n m e => (FVal.fin n m (e + 8 - b)).toInt false 0
      | _ => 0
    bytesLE 1 (ofSigned 8 ((if 255 < x then 255 else x) - 128))

/-- The lines of a frame that an output row is made of, and its rows of weights. -/
def rowSrc (c : StreamCfg) (p : Plane) (y : Nat) : List Nat :=
  if c.scale = 0 then [p.y0 + y]
  else if c.scale = 1 then [p.y0 + nearPos p.h c.outH y]
  else let r := bilinPos p.h c.outH y; [p.y0 + r.1, p.y0 + r.2.1]

/-- The value of an output pixel from the lines it is made of (R114). -/
def outPix (c : StreamCfg) (p : Plane) (ls : List (List Nat)) (y x : Nat) : FVal :=
  let at_ (l q : Nat) : FVal := .ofInt (((ls.getD l []).getD (p.col (p.x0 + q)) 0 : Nat) : Int)
  if c.scale = 0 then at_ 0 x
  else if c.scale = 1 then at_ 0 (nearPos p.w p.ow x)
  else
    let px := bilinPos p.w p.ow x
    let fy := (bilinPos p.h c.outH y).2.2
    let fx := px.2.2
    let gx := f32sub (.ofInt 1) fx
    let gy := f32sub (.ofInt 1) fy
    let top := f32add (f32mul gx (at_ 0 px.1)) (f32mul fx (at_ 0 px.2.1))
    let bot := f32add (f32mul gx (at_ 1 px.1)) (f32mul fx (at_ 1 px.2.1))
    f32add (f32mul gy top) (f32mul fy bot)

/-- One output row: its bytes, poisoned where a line it is made of failed or is missing (R365). -/
def outRow (c : StreamCfg) (lines : List (List Nat × Bool)) (p : Plane) (y : Nat) : List (Byte × Bool) :=
  let ls := (rowSrc c p y).map (fun l => lines.getD l ([], false))
  let bad := ls.any (fun l => !l.2)
  let px := ls.map (·.1)
  (List.range p.ow).flatMap (fun x => (convPix c (outPix c p px y x)).map (fun b => (if bad ∧ px.any List.isEmpty then 0 else b, bad)))

/-- The planes of a frame written after its record (R364, R102). -/
def writePlanes (s : State) (c : StreamCfg) (lab : Label) (base : Nat) (lines : List (List Nat × Bool)) : State :=
  let ps := planesOf c
  (List.range ps.length).foldl (fun t k => match ps[k]? with
    | none => t
    | some p => forUpTo c.outH (fun y u =>
        let bs := outRow c lines p y
        busWriteBytes .stream lab (bs.length / 8 + 2) u (base + 64 + k * c.planePitch + y * c.rowPitch) bs) t) s

/-! ### Frames (R364, R365) -/

/-- A frame ends: missing lines, the planes, the record with word 0 last, and the request of its receiver. -/
def frameDone (s : State) (k : Nat) (c : StreamCfg) (i : Image) : State :=
  let r := getStream s k
  let lab : Label := ⟨c.drift, i.owner⟩
  let missing := decide (r.lines.length < c.inH)
  let s := if missing then detect (strFlag s k 3) .package 0 .de 0x95 0 else s
  let a := c.ring + r.buf * c.pitch
  let s := writePlanes s c lab a r.lines
  let w0 := 1 + b2n (r.crcErrs ≠ 0) * 2 + b2n missing * 4 + b2n r.extra * 8 + r.frame * 2 ^ 32
  let rest : List Word :=
    [r.sofNs, BitVec.ofNat 64 (r.sofFrac + r.lines.length * 65536), BitVec.ofNat 64 (r.crcErrs + k * 2 ^ 32), now s, 0, 0, 0]
  let s := busWriteWords s .stream lab (a + 8) (rest.map PWord.clean)
  let s := busWrite s .stream lab a (PWord.clean (BitVec.ofNat 64 w0))
  let next := if c.count = 0 then 0 else (r.buf + 1) % c.count
  mvRequestOp (setStream s k { r with buf := next, open_ := false, lines := [], crcErrs := 0, extra := false }) (k / 8)

/-- The frame in progress ends. -/
def frameEnd (s : State) (k : Nat) : State :=
  let r := getStream s k
  match Tab.find s.streams.cfg k with
  | none => s
  | some c => match streamOwner s k c with
    | none => s
    | some i =>
      if ¬ r.open_ then s
      else if r.drop then setStream s k { r with open_ := false, drop := false, lines := [] }
      else frameDone s k c i

/-- CSI2_FRAME_START (R364-R366): a frame the next FS closes ends first; then the next buffer is taken, or the whole
frame is dropped. -/
def frameStart (s : State) (k : Nat) : State :=
  match Tab.find s.streams.cfg k with
  | none => s
  | some c => match streamOwner s k c with
    | none => s
    | some i =>
      let s := wrb (frameEnd s k) (Reg.STR_STATUS k) 0 true
      let s := incWrap s (Reg.STR_FRAMES k) 32 1
      let r := getStream s k
      let (w, s) := busRead s .stream (c.ring + r.buf * c.pitch)
      let s := lineRead s ⟨c.drift, i.owner⟩ (c.ring + r.buf * c.pitch)
      let r := { r with
        open_ := true, frame := (r.frame + 1) % 2 ^ 32, lines := [], extra := false, crcErrs := 0,
        sofNs := now s, sofFrac := s.snow.sub.toNat / 2 ^ 24, drop := bit w.v 0 }
      let s := setStream s k r
      if bit w.v 0 then strFlag (incSat s (Reg.STR_DROPPED k) 32 1) k 1 else s

def execCsi2FrameStart (s_ : Nat) (s : State) : Result := .next (frameStart s s_)

/-- The components a line is short of are open values. -/
def padLine (s : State) (n bits : Nat) (px : List Nat) : List Nat × State :=
  if n ≤ px.length then (px.take n, s)
  else
    let k := n - px.length
    (px ++ (List.range k).map (fun i => (Config.freeWord (s.free + i)).toNat % 2 ^ bits), { s with free := s.free + k })

/-- A line of the open frame (R365). -/
def frameLine (s : State) (k : Nat) (c : StreamCfg) (px : List Nat) (ok : Bool) : State :=
  let r := getStream s k
  if r.lines.length < c.inH then
    let n := if c.dt = 0x1E then 2 * c.inW else c.inW
    let (px, s) := padLine s n (dtBits c.dt) px
    let s := setStream s k { r with lines := r.lines ++ [(px, ok)], crcErrs := if ok then r.crcErrs else r.crcErrs + 1 }
    if ok then s
    else detect (strFlag (incSat s (Reg.STR_CRC k) 32 1) k 2) .package 0 .de 0x95 0
  else strFlag (setStream s k { r with extra := true }) k 4

/-- CSI2_LINE (R361, R365): a packet with an uncorrectable header, or of another data type, is dropped and counted. -/
def execCsi2Line (s_ dt : Nat) (pixels : List Nat) (crcOk hdrOk : Bool) (s : State) : Result :=
  .next (let a := Reg.RX_HDR_ERR (s_ / 8)
    if ¬ rdb s Reg.STR_CTL (s_ / 8) then s
    else if ¬ hdrOk then wrf s a 15 0 (satAdd 16 (rdf s a 15 0) 1)
    else match Tab.find s.streams.cfg s_ with
      | none => wrf s a 31 16 (satAdd 16 (rdf s a 31 16) 1)
      | some c =>
        if dt ≠ c.dt ∨ ¬ dtKnown dt then wrf s a 31 16 (satAdd 16 (rdf s a 31 16) 1)
        else if (getStream s s_).open_ ∧ ¬ (getStream s s_).drop then frameLine s s_ c pixels crcOk
        else s)

/-- CSI2_FRAME_END (R364, R365). -/
def execCsi2FrameEnd (s_ : Nat) (s : State) : Result := .next (frameEnd s s_)

/-- DESKEW_CALIBRATION (R361): lanes up and deskewed. -/
def execDeskewCalibration (rx lanes : Nat) (s : State) : Result :=
  .next (wrf (wrf s (Reg.RX_STATUS rx) 2 0 lanes) (Reg.RX_STATUS rx) 3 3 1)

end Sys2Proof.Machine
end

