-- ==== Sys2Proof/Machine/Gateway.lean ====
section
/-! DEFINITION. The gateway (R367-R371): the switch, the internal port's queues, transmit timestamps, gates and the
CAN FD controllers. The layouts of a buffer's header and of a CAN message are log entry 25. Port 12 of a command is
the management port; in the switch's own tables it is the internal port. -/

namespace Sys2Proof.Machine

def setGw (s : State) (g : GatewaySt) : State := { s with gateway := g }

/-! ### Rings (R369) -/

/-- A ring that may be used: firmware's own, or in the regions of its loaded owner. -/
def ringLabel (s : State) (r : RingSt) : Option Label :=
  if r.owner = 0 then some fwLabel
  else (ringOwned s r.owner r.base (r.pitch * r.count)).map (fun i => ⟨r.drift, i.owner⟩)

/-- The next buffer of a ring. -/
def ringBuf (r : RingSt) : Nat := r.base + r.next * r.pitch

def ringStep (r : RingSt) : RingSt := { r with next := if r.count = 0 then 0 else (r.next + 1) % r.count }

/-- The header of a buffer: OWN, TS_REQ, FRAME_ID, length, port; VLAN tag; time; fraction. -/
def hdrWords (own tsReq : Bool) (id len port tag : Nat) (ns : Word) (frac : Nat) : List Word :=
  [ BitVec.ofNat 64 (b2n own + b2n tsReq * 2 + id * 65536 + len * 2 ^ 32 + port * 2 ^ 48), BitVec.ofNat 64 tag, ns,
    BitVec.ofNat 64 frac ]

/-- The VLAN tag of a frame. -/
def vlanTag (f : EthFrame) : Nat := f.vlan + f.pcp * 8192

/-- A frame written to the next buffer of a receive queue, or dropped and counted (R369). -/
def rxQueue (s : State) (q port : Nat) (f : EthFrame) : State :=
  let drop (t : State) : State := setGw t { t.gateway with rxDropped := Tab.upd 0 t.gateway.rxDropped q (· + 1) }
  match Tab.find s.gateway.rx q with
  | none => drop s
  | some r => match ringLabel s r with
    | none => drop s
    | some lab =>
      let a := ringBuf r
      let (w, s) := busRead s .stream a
      if bit w.v 0 then drop s
      else
        let s := busWriteBytes .stream lab (f.bytes.length / 8 + 2) s (a + 32) (f.bytes.map (fun b => (b, f.poison)))
        let h := hdrWords true false 0 f.bytes.length port (vlanTag f) (now s) (s.snow.sub.toNat / 2 ^ 24)
        let s := busWriteWords s .stream lab (a + 8) ((h.drop 1).map PWord.clean)
        let s := busWriteWords s .stream lab a ((h.take 1).map PWord.clean)
        mvRequestOp (setGw s { s.gateway with rx := Tab.set s.gateway.rx q (ringStep r) }) (52 + q)

/-! ### The switch (R368) -/

/-- The members of a VLAN; a VLAN no entry names has every port. -/
def vlanPorts (s : State) (v : Nat) : List Nat := Tab.get (List.range 13) s.gateway.vlans v

/-- A group address. -/
def isGroup (m : BitVec 48) : Bool := m.getLsbD 40

/-- An address learned, in a table of 8,192. -/
def learn (s : State) (f : EthFrame) (port : Nat) : State :=
  let rest := s.gateway.fdb.filter (fun e => !(e.mac == f.src && e.vlan == f.vlan))
  if isGroup f.src ∨ 8192 ≤ rest.length then s
  else setGw s { s.gateway with fdb := rest ++ [⟨f.src, f.vlan, port⟩] }

/-- A stream filter lets the frame pass (802.1Qci): its size, and its gate open. -/
def filterPass (s : State) (f : EthFrame) : Bool :=
  match Tab.find s.gateway.filters f.streamId with
  | some (_, n) => decide (f.bytes.length ≤ n)
  | none => true

/-- Redundancy elimination (802.1CB): a sequence number within the history is a duplicate. -/
def frerPass (s : State) (f : EthFrame) : Bool × State :=
  match Tab.find s.gateway.frer f.streamId with
  | none => (true, s)
  | some (h, seen) =>
    if seen.contains f.seqNum then (false, s)
    else (true, setGw s { s.gateway with frer := Tab.set s.gateway.frer f.streamId (h, (f.seqNum :: seen).take h) })

/-- The ports a frame leaves by: the learned one, or every member but the one it came in by. -/
def egressPorts (s : State) (f : EthFrame) (port : Nat) : List Nat :=
  let members := (vlanPorts s f.vlan).filter (· != port)
  match s.gateway.fdb.find? (fun e => e.mac == f.dst && e.vlan == f.vlan) with
  | some e => if isGroup f.dst then members else members.filter (· == e.port)
  | none => members

/-- A frame forwarded: into an egress queue, or into the internal port. -/
def forward (s : State) (f : EthFrame) (port : Nat) : State :=
  (egressPorts s f port).foldl (fun t p =>
    if p = 12 then rxQueue t (if f.pcp < 7 then f.pcp else 6) port f
    else setGw t { t.gateway with egress := Tab.upd [] t.gateway.egress p (· ++ [f]) }) s

/-- A frame bridged from a port of the switch. -/
def bridge (s : State) (f : EthFrame) (port : Nat) : State :=
  if ¬ (vlanPorts s f.vlan).contains port ∨ ¬ filterPass s f then s
  else
    let (ok, s) := frerPass s f
    if ok then forward (learn s f port) f port else s

/-- ETH_FRAME_RECEIVE (R367-R369): the management port's frames and PTP go to queue 7; the others are bridged. -/
def execEthFrameReceive (port : Nat) (f : EthFrame) (s : State) : Result :=
  .next (if 9216 < f.bytes.length then s
    else if port = 12 ∨ f.ptp then rxQueue s 7 port f
    else bridge s f port)

/-! ### Transmission (R369, R370) -/

/-- A number of `n` bytes, most significant first. -/
def beNum (bs : List (Byte × Bool)) (off n : Nat) : Nat := ((bs.drop off).take n).foldl (fun a b => a * 256 + b.1.toNat) 0

/-- A frame as its owner wrote it. -/
def parseFrame (bs : List (Byte × Bool)) : EthFrame :=
  let tagged := beNum bs 12 2 == 0x8100
  let tci := if tagged then beNum bs 14 2 else 0
  let ty := if tagged then beNum bs 16 2 else beNum bs 12 2
  { dst := BitVec.ofNat 48 (beNum bs 0 6), src := BitVec.ofNat 48 (beNum bs 6 6), vlan := tci % 4096,
    pcp := tci / 8192, streamId := 0, seqNum := 0, bytes := bs.map (·.1), poison := bs.any (·.2), ptp := ty == 0x88F7 }

/-- TX_QUEUE_POLL (R369): an idle queue reads the header of its next buffer and takes the frame its owner has set OWN
of. Queue 7's frames for the management port are left to firmware's choice of destination. -/
def execTxQueuePoll (q : Nat) (s : State) : Result :=
  .next (match Tab.find s.gateway.tx q, Tab.find s.gateway.sending q with
    | some r, none => (match ringLabel s r with
      | none => s
      | some _ =>
        let a := ringBuf r
        let (w, s) := busRead s .stream a
        if bit w.v 0 then
          let n := fld w.v 47 32
          let (bs, s) := busReadBytes s .stream fwLabel (a + 32) n
          let f := parseFrame bs
          let s := setGw s { s.gateway with sending := Tab.set s.gateway.sending q (f, a) }
          bridge s f 12
        else s)
    | _, _ => s)

/-- A timestamp joins a port's queue of 16, or is dropped and counted (R370). -/
def stamp (s : State) (port id : Nat) : State :=
  let l := Tab.get [] s.gateway.tsq port
  if 16 ≤ l.length then incSat s (Reg.TSQ_OVF port) 32 1
  else setGw s { s.gateway with tsq := Tab.set s.gateway.tsq port (l ++ [⟨now s, s.snow.sub.toNat / 2 ^ 24, id⟩]) }

/-- The header of a transmit buffer written back with OWN clear, and with the stamp where TS_REQ asks for it. -/
def txWriteBack (s : State) (q port : Nat) : State :=
  match Tab.find s.gateway.tx q, Tab.find s.gateway.sending q with
  | some r, some (f, a) => (match ringLabel s r with
    | none => setGw s { s.gateway with sending := Tab.del s.gateway.sending q }
    | some lab =>
      let (w, s) := busRead s .stream a
      let ts := bit w.v 1
      let id := fld w.v 31 16
      let s := if ts then stamp s port id else s
      let t : Word := if ts then now s else 0
      let h := hdrWords false ts id f.bytes.length port (vlanTag f) t (if ts then s.snow.sub.toNat / 2 ^ 24 else 0)
      let s := busWriteWords s .stream lab (a + 8) ((h.drop 1).map PWord.clean)
      let s := busWriteWords s .stream lab a ((h.take 1).map PWord.clean)
      setGw s { s.gateway with sending := Tab.del s.gateway.sending q, tx := Tab.set s.gateway.tx q (ringStep r) })
  | _, _ => s

/-- The gate of a traffic class is open at a port (802.1Qbv). -/
def gateOpen (s : State) (port cls : Nat) : Bool :=
  match Tab.find s.gateway.gates port with
  | none => true
  | some g => match g.entries[g.cur]? with
    | some e => e.1.testBit cls
    | none => true

/-- The frame that leaves a port next: the highest class whose gate is open, oldest first. -/
def nextFrame (s : State) (port : Nat) : Option EthFrame :=
  let l := (Tab.get [] s.gateway.egress port).filter (fun f => gateOpen s port f.pcp)
  l.foldl (fun m f => match m with
    | none => some f
    | some g => if g.pcp < f.pcp then some f else some g) none

/-- A frame taken out of a list once. -/
def dropOne (f : EthFrame) : List EthFrame → List EthFrame
  | [] => []
  | g :: gs => if g = f then gs else g :: dropOne f gs

/-- ETH_FRAME_SENT (R369, R370, R28): a frame has left a port; for a frame of a transmit queue the header is written
back and stamped. A frame that carries poison is dropped with UC 0x90. -/
def execEthFrameSent (port frameId : Nat) (q : Option Nat) (s : State) : Result :=
  .next (let f := match q with
      | some k => (Tab.find s.gateway.sending k).map (·.1)
      | none => nextFrame s port
    match f with
    | none => s
    | some f =>
      let s := setGw s { s.gateway with egress := Tab.upd [] s.gateway.egress port (dropOne f) }
      let s := if f.poison then detect s .package 0 .uc 0x90 0 else emit s (.frame port f)
      match q with
      | some k => txWriteBack s k port
      | none => if f.ptp then stamp s port frameId else s)

/-- TSQ_INFO_READ (R370): the stream manager alone reads these queues; the read pops the head entry. -/
def execTsqInfoRead (who : Requester) (port : Nat) (s : State) : Result :=
  .next (if rimeOf who = some 1 ∨ who = .debug then wholeRead s who (Reg.TSQ_INFO port) 0 else s)

/-- GATE_CHANGE (R368): the next entry of a port's gate list takes effect at its Snowline instant. -/
def execGateChange (port : Nat) (s : State) : Result :=
  .next (match Tab.find s.gateway.gates port with
    | none => s
    | some g =>
      if reached (now32 s) (g.at_.toNat % 2 ^ 32) ∧ ¬ g.entries.isEmpty then
        let cur := (g.cur + 1) % g.entries.length
        let len := match g.entries[cur]? with
          | some e => e.2
          | none => 0
        setGw s { s.gateway with gates := Tab.set s.gateway.gates port { g with
          cur := cur, at_ := g.at_ + BitVec.ofNat 64 len } }
      else s)

/-- ADDRESS_AGEING (R368): a learned address that has aged out is forgotten. -/
def execAddressAgeing (mac : BitVec 48) (vlan : Nat) (s : State) : Result :=
  .next (setGw s { s.gateway with fdb := s.gateway.fdb.filter (fun e => !(e.mac == mac && e.vlan == vlan)) })

/-! ### CAN FD (R371) -/

def getCan (s : State) (n : Nat) : CanSt := Tab.get {} s.gateway.can n
def setCan (s : State) (n : Nat) (c : CanSt) : State := setGw s { s.gateway with can := Tab.set s.gateway.can n c }

/-- An acceptance filter (identifier, mask) matches. -/
def canAccept (c : CanSt) (m : CanMsg) : Bool := c.filters.any (fun f => f.1 &&& f.2 == m.ident &&& f.2)

/-- A CAN message in a buffer: identifier and format after the header, then its bytes. -/
def canWord (m : CanMsg) : Word := BitVec.ofNat 64 (m.ident + b2n m.fd * 2 ^ 32)

/-- CAN_FRAME_RECEIVE (R371): a message that passes a filter is written to the receive ring. -/
def execCanFrameReceive (n : Nat) (m : CanMsg) (s : State) : Result :=
  .next (let c := getCan s n
    match c.rx with
    | none => s
    | some r => match ringLabel s r with
      | none => s
      | some lab =>
        if c.busOff ∨ ¬ canAccept c m then s
        else
          let a := ringBuf r
          let (w, s) := busRead s .stream a
          if bit w.v 0 then s
          else
            let s := busWriteBytes .stream lab (m.bytes.length / 8 + 2) s (a + 40) (m.bytes.map (fun b => (b, false)))
            let h := hdrWords true false 0 m.bytes.length n 0 (now s) (s.snow.sub.toNat / 2 ^ 24)
            let s := busWriteWords s .stream lab (a + 8) (((h.drop 1) ++ [canWord m]).map PWord.clean)
            let s := busWriteWords s .stream lab a ((h.take 1).map PWord.clean)
            mvRequestOp (setCan s n { c with rx := some (ringStep r) }) (36 + n))

/-- CAN_LAUNCH (R371): the next message its owner has set OWN of enters arbitration once its launch time, if it has
one, is reached. A poisoned one is dropped with UC 0x90 (R28). -/
def execCanLaunch (n : Nat) (s : State) : Result :=
  .next (let c := getCan s n
    match c.tx with
    | none => s
    | some r => match ringLabel s r with
      | none => s
      | some _ =>
        if c.busOff ∨ c.sending.isSome then s
        else
          let a := ringBuf r
          let (hs, s) := busReadWords 5 s .stream fwLabel a
          let h (k : Nat) : Word := (hs.getD k ⟨0, false⟩).v
          let timed := bit (h 1) 16
          if bit (h 0) 0 ∧ (¬ timed ∨ reached (now32 s) (fld (h 2) 31 0)) then
            let (bs, s) := busReadBytes s .stream fwLabel (a + 40) (fld (h 0) 47 32)
            let m : CanMsg := ⟨fld (h 4) 31 0, bit (h 4) 32, bs.map (·.1)⟩
            let bad := hs.any (·.p) || bs.any (·.2)
            let s := if bad then detect s .package 0 .uc 0x90 a else emit s (.can n m)
            setCan s n { c with sending := some (m, a) }
          else s)

/-- CAN_TRANSMIT_DONE (R371): the buffer goes back to its owner, and the controller's line is requested. -/
def execCanTransmitDone (n : Nat) (s : State) : Result :=
  .next (let c := getCan s n
    match c.sending, c.tx with
    | some (m, a), some r =>
      (match ringLabel s r with
        | none => setCan s n { c with sending := none }
        | some lab =>
          let h := hdrWords false false 0 m.bytes.length n 0 (now s) (s.snow.sub.toNat / 2 ^ 24)
          let s := busWriteWords s .stream lab (a + 8) ((h.drop 1).map PWord.clean)
          let s := busWriteWords s .stream lab a ((h.take 1).map PWord.clean)
          mvRequestOp (setCan s n { c with sending := none, tx := some (ringStep r) }) (44 + n))
    | _, _ => s)

/-- CAN_BUS_OFF_RECOVERY (R371): 128 occurrences of 11 recessive bits, unless the plan holds the controller. -/
def execCanBusOffRecovery (n : Nat) (s : State) : Result :=
  .next (let c := getCan s n
    if c.busOff ∧ ¬ c.holdOff then setCan s n { c with busOff := false } else s)

/-! ### The plan (R347, R362, R372, R336) -/

/-- The resources a plan entry claims (Table 13.9). -/
def planClaims : PlanEnt → List Nat
  | .trig fs k _ _ => [if fs then 16 + k else k]
  | .compare u _ _ _ ts fs _ => (64 + u) :: (ts ++ fs.map (16 + ·))
  | .capture c _ _ => [32 + c]
  | _ => []

/-- The ring ranges a plan entry claims. -/
def planRings : PlanEnt → List (Nat × Nat)
  | .stream _ c => [(c.ring, c.pitch * c.count)]
  | .rxRing _ r => [(r.base, r.pitch * r.count)]
  | .txRing _ r => [(r.base, r.pitch * r.count)]
  | .canRing _ r t _ _ => [(r.base, r.pitch * r.count), (t.base, t.pitch * t.count)]
  | _ => []

/-- An entry marked secure. -/
def planSecure : PlanEnt → Bool
  | .trig _ _ _ b => b
  | .compare _ _ _ _ _ _ b => b
  | .capture _ _ b => b
  | _ => false

/-- The SEC_PIN bit of a claimed signal. -/
def claimPin (k : Nat) : Option Nat :=
  if k < 16 then some k
  else if k < 32 then some (24 + (k - 16))
  else if k < 40 then some (16 + (k - 32))
  else none

/-- An entry whose own fields break a rule of the chapter (R354, R369, Table 13.4). -/
def planBad : PlanEnt → Bool
  | .compare u p w per _ _ _ => decide (12 ≤ u) || (per && !(decide (16 ≤ p) && decide (4 * w < p)))
  | .rxRing 7 r => r.owner != 0
  | .txRing 7 r => r.owner != 0
  | .stream _ c => decide (c.count < 2 ∨ 16 < c.count) || c.pitch % 64 != 0 ||
      (c.dt != 0x1E && decide (c.scale ≠ 0)) || (c.scale == 0 && !(c.outW == c.cropW && c.outH == c.cropH))
  | _ => false

def ringsMeet (a b : Nat × Nat) : Bool := decide (a.1 < b.1 + b.2) && decide (b.1 < a.1 + a.2)

/-- An entry put in force. -/
def planPut (s : State) (e : PlanEnt) : State :=
  match e with
  | .stream k c => { s with streams := { s.streams with cfg := Tab.set s.streams.cfg k c } }
  | .trig fs k cfg _ => wr s (if fs then Reg.FSYNC_CFG k else Reg.TRIG_CFG k) (cfg.zeroExtend 64)
  | .compare u p w per ts fs _ =>
    let s := wrf (wrf s (Reg.CMP_CTL u) 2 2 (b2n per)) (Reg.CMP_CTL u) 23 8 w
    let s := wrf s (Reg.CMP_TARGET u) 63 32 p
    let s := ts.foldl (fun t k => wrn t (Reg.TRIG_CFG k) (2 + u * 8)) s
    fs.foldl (fun t k => wrn t (Reg.FSYNC_CFG k) (2 + u * 8)) s
  | .capture c edge _ => wrn s (Reg.CAP_CFG c) edge
  | .rxRing q r => setGw s { s.gateway with rx := Tab.set s.gateway.rx q r }
  | .txRing q r => setGw s { s.gateway with tx := Tab.set s.gateway.tx q r }
  | .canRing n r t fs ho => setCan s n { rx := some r, tx := some t, filters := fs, holdOff := ho }
  | .gate p g => setGw s { s.gateway with gates := Tab.set s.gateway.gates p g }
  | .vlan v ps => setGw s { s.gateway with vlans := Tab.set s.gateway.vlans v ps }
  | .filter i g n => setGw s { s.gateway with filters := Tab.set s.gateway.filters i (g, n) }
  | .frer i h => setGw s { s.gateway with frer := Tab.set s.gateway.frer i (h, []) }

/-- One entry of the plan: refused where a resource it names is held, else applied, its claims and its SEC_PIN bits
taken. `acc` carries the rings claimed so far and the entry's index. -/
def planStep (acc : State × List (Nat × Nat) × Nat) (e : PlanEnt) : State × List (Nat × Nat) × Nat :=
  let (s, rings, k) := acc
  let ks := planClaims e
  let held := ks.any (fun r => (Tab.find s.snow.claimed r).isSome ||
    (!planSecure e && (match claimPin r with
      | some b => rdb s Reg.SEC_PIN b
      | none => false)))
  let meet := (planRings e).any (fun r => rings.any (ringsMeet r))
  if held ∨ meet ∨ planBad e then
    let n := rdf s Reg.PLAN_STATUS 15 0
    let s := if n = 0 then wrf s Reg.PLAN_STATUS 31 16 k else s
    (wrf s Reg.PLAN_STATUS 15 0 (satAdd 16 n 1), rings, k + 1)
  else
    let s := { s with snow := { s.snow with
      claimed := ks.foldl (fun t r => Tab.set t r (b2n (planSecure e))) s.snow.claimed } }
    let s := if planSecure e then (ks.filterMap claimPin).foldl (fun t b => wrb t Reg.SEC_PIN b true) s else s
    (planPut s e, rings ++ planRings e, k + 1)

/-- The plan applied in list order (R347). -/
def planApply (s : State) : State :=
  let s := { s with snow := { s.snow with claimed := [] }, streams := {}, gateway := {} }
  (s.power.nvm.stream.foldl planStep (wr s Reg.PLAN_STATUS 0, [], 0)).1

end Sys2Proof.Machine
end

