-- ==== Sys2Proof/Machine/Cornice.lean ====
section
/-! DEFINITION. Cornice (14): its windows and rings (R374-R376), render cores (R377), passes in tiled and immediate mode
(R378-R384), textures (R385, R386), rays (R387-R389), heads (R390-R392) and how a pass ends (R393). Render core k is
core 128 + k of the core tables. What the spec does not give of rasterising, filtering and the ray test stands in
Config (log entries 26-28). -/

namespace Sys2Proof.Machine

/-! ### Requests (R375) -/

def setCor (s : State) (x : CorniceSt) : State := { s with cornice := x }
def setPass (s : State) (p : PassSt) : State := setCor s { s.cornice with pass := some p }
def setMap (s : State) (m : MapSt) : State := setCor s { s.cornice with map := some m }

/-- Do `n` bytes at `a` lie in a window of the plan, one with WR for a write? -/
def inWin (p : DispPlan) (write : Bool) (a n : Nat) : Bool :=
  p.wins.any (fun w => decide (w.base ≤ a) && decide (a + n ≤ w.base + w.size) && (w.wr || !write))

/-- The map job ends with a status. -/
def mapStop (s : State) (status : Nat) : State :=
  match s.cornice.map with
  | none => s
  | some m =>
    if m.done then s
    else
      let s := setMap s { m with done := true, status := status }
      if status = 1 ∨ status = 2 then hwSetBit s Reg.CORNICE_STATUS Reg.CORNICE_EVCNT 2 else s

/-- The pass or the map job ends with a status. -/
def workStop (s : State) (map : Bool) (status : Nat) : State :=
  if map then mapStop s status else passStop s status

/-- A request outside the windows (R375). -/
def windowFault (s : State) (map : Bool) (a : Nat) : State :=
  detect (workStop s map 1) .package 0 .uc 0x96 a

/-- Poison met where it cannot travel on (R393). -/
def corPoison (s : State) (map : Bool) (a : Nat) : State :=
  detect (workStop s map 2) .package 0 .uc 0x97 a

/-- The label of the owner's work (Table 14.1). -/
def corLabel (p : DispPlan) (map : Bool) : Label := ⟨p.drift, if map then p.mapOwner else p.owner⟩

/-- A read by Cornice: nothing where it does not take place. -/
def corRead (s : State) (map : Bool) (a n : Nat) : Option (List (Byte × Bool)) × State :=
  match s.cornice.plan with
  | none => (none, s)
  | some p =>
    if inWin p false a n then
      let (bs, s) := busReadBytes s .cornice (corLabel p map) a n
      (some bs, s)
    else (none, windowFault s map a)

/-- A write by Cornice: false where it does not take place. -/
def corWrite (s : State) (map : Bool) (a : Nat) (bs : List (Byte × Bool)) : Bool × State :=
  match s.cornice.plan with
  | none => (false, s)
  | some p =>
    if inWin p true a bs.length then
      (true, busWriteBytes .cornice (corLabel p map) (bs.length + 1) s a bs)
    else (false, windowFault s map a)

/-- Plain bytes written clean. -/
def corPut (s : State) (map : Bool) (a n x : Nat) : State :=
  (corWrite s map a ((bytesLE n x).map (fun b => (b, false)))).2

/-- A clean number read; poison ends the work. -/
def corNum (s : State) (map : Bool) (a n : Nat) : Option Nat × State :=
  match corRead s map a n with
  | (some bs, s) => if bs.any (·.2) then (none, corPoison s map a) else (some (ofBytesLE (bs.map (·.1))), s)
  | (none, s) => (none, s)

/-- An operation for each of a list, stopping where one does not answer. -/
def forEachOpt {α β : Type} (f : α → State → Option β × State) : List α → State → Option (List β) × State
  | [], s => (some [], s)
  | x :: xs, s =>
    match f x s with
    | (none, s) => (none, s)
    | (some b, s) =>
      match forEachOpt f xs s with
      | (none, s) => (none, s)
      | (some bs, s) => (some (b :: bs), s)

/-- Clean 64-bit words. -/
def corWords (s : State) (map : Bool) (a n : Nat) : Option (List Word) × State :=
  match forEachOpt (fun i s => corNum s map (a + 8 * i) 8) (List.range n) s with
  | (some l, s) => (some (l.map (BitVec.ofNat 64)), s)
  | (none, s) => (none, s)

/-! ### Descriptor fields (Table 14.3) -/

def PassSt.w (p : PassSt) (i : Nat) : Word := p.desc.getD i 0
def PassSt.tiled (p : PassSt) : Bool := fld (p.w 0) 1 0 == 0
def PassSt.skipEn (p : PassSt) : Bool := bit (p.w 0) 2
def PassSt.targets (p : PassSt) : Nat := fld (p.w 0) 5 3
def PassSt.width (p : PassSt) : Nat := fld (p.w 1) 13 0
def PassSt.height (p : PassSt) : Nat := fld (p.w 1) 29 16
def PassSt.target (p : PassSt) (t : Nat) : Nat := fld (p.w (2 + t)) 47 0
def PassSt.pitch (p : PassSt) : Nat := fld (p.w 6) 15 0
def PassSt.clear (p : PassSt) : Nat := fld (p.w 6) 63 32
def PassSt.sigBase (p : PassSt) : Nat := fld (p.w 7) 47 0
def PassSt.vprog (p : PassSt) : Nat × Nat := (fld (p.w 8) 47 0, fld (p.w 8) 58 48)
def PassSt.fprog (p : PassSt) : Nat × Nat := (fld (p.w 9) 47 0, fld (p.w 9) 58 48)
def PassSt.drawBase (p : PassSt) : Nat × Nat := (fld (p.w 10) 47 0, fld (p.w 10) 63 48)
def PassSt.tex (p : PassSt) : Nat × Nat := (fld (p.w 11) 47 0, fld (p.w 11) 53 48)
def PassSt.chunkList (p : PassSt) : Nat × Nat := (fld (p.w 12) 47 0, fld (p.w 12) 54 48)
def PassSt.growAddr (p : PassSt) : Nat := fld (p.w 13) 47 0
def PassSt.growWait (p : PassSt) : Nat := fld (p.w 13) 63 48
def PassSt.budget (p : PassSt) : Nat := fld (p.w 14) 31 0

/-- Tiles of a row, and tiles in all. -/
def PassSt.tilesX (p : PassSt) : Nat := ceilDiv p.width 32
def PassSt.tileCount (p : PassSt) : Nat := p.tilesX * ceilDiv p.height 32

/-- The bits of each descriptor word that are not reserved. -/
def passMasks : List Word :=
  [ 0xFF3F, 0x3FFF3FFF, 0xFFFFFFFFFFFF, 0xFFFFFFFFFFFF, 0xFFFFFFFFFFFF, 0xFFFFFFFFFFFF, 0xFFFFFFFF0000FFFF,
    0xFFFFFFFFFFFF, 0x07FFFFFFFFFFFFFF, 0x07FFFFFFFFFFFFFF, 0xFFFFFFFFFFFFFFFF, 0x003FFFFFFFFFFFFF,
    0x007FFFFFFFFFFFFF, 0xFFFFFFFFFFFFFFFF, 0xFFFFFFFF, 0xFFFFFFFFFFFFFFFF ]

/-- A descriptor in which no reserved value is set and every address in use lies in a window (R378). -/
def descOk (d : DispPlan) (p : PassSt) : Bool :=
  (List.range 16).all (fun i => p.w i &&& ~~~ (passMasks.getD i 0) == 0)
  && decide (fld (p.w 0) 1 0 < 2) && decide (1 ≤ p.targets) && decide (p.targets ≤ 4)
  && decide (1 ≤ p.width) && decide (p.width ≤ 8192) && decide (1 ≤ p.height) && decide (p.height ≤ 8192)
  && decide (p.pitch % 64 = 0) && decide (1 ≤ p.drawBase.2) && decide (p.tex.2 ≤ 32) && decide (p.chunkList.2 ≤ 64)
  && decide (1 ≤ p.vprog.2) && decide (1 ≤ p.fprog.2) && decide (p.vprog.2 + p.fprog.2 ≤ 2048)
  && (List.range p.targets).all (fun t => inWin d false (p.target t) 4)
  && inWin d false p.sigBase 8 && inWin d false p.vprog.1 32 && inWin d false p.fprog.1 32
  && inWin d false p.drawBase.1 32 && (p.tex.2 == 0 || inWin d false p.tex.1 32)
  && (p.chunkList.2 == 0 || inWin d false p.chunkList.1 8) && (!p.tiled || inWin d false p.growAddr 8)

/-! ### Render programs (R377) -/

/-- The render instructions (Table 14.2). -/
def renderRows : List OpRow :=
  [ ⟨0xE0, .none, .none, .none, .none, [0], .none⟩, ⟨0xE1, .none, .v, .none, .none, [0], .none⟩,
    ⟨0xE2, .none, .none, .none, .none, [0], .none⟩, ⟨0xE3, .v, .v, .v, .v, [0], .part5⟩,
    ⟨0xE4, .v, .none, .none, .none, [0], .any⟩, ⟨0xE5, .none, .v, .none, .none, [0], .any⟩,
    ⟨0xE6, .none, .none, .none, .none, [0], .none⟩, ⟨0xE7, .v, .v, .none, .none, [0], .none⟩,
    ⟨0xEF, .none, .none, .none, .none, [0], .none⟩ ]

/-- The last register of a run of registers that an instruction names by its first one has to exist. -/
def renderRun (x : Insn) : Bool :=
  match x.op with
  | 0xE1 => decide (x.a + 7 < 32)
  | 0xE3 => decide (x.d + 3 < 32)
  | 0xE7 => decide (x.d + 3 < 32) && decide (x.a + 7 < 32)
  | _ => true

/-- Is the X slot a defined render instruction? -/
def renderLegal (x : Insn) : Bool :=
  match renderRows.find? (fun r => r.op == x.op) with
  | none => false
  | some r => r.d.ok x.d && r.a.ok x.a && r.b.ok x.b && r.c.ok x.c && r.mods.contains x.md && immOk r.imm x none
      && (!(x.op == 0xE4 || x.op == 0xE5) || decide (x.imm.toNat < 4)) && renderRun x

/-- Does an instruction name a cluster semaphore? -/
def namesCluster (x : Insn) : Bool := decide (0x20 ≤ x.op ∧ x.op ≤ 0x23) && x.imm.getLsbD 8

/-- A bundle that keeps the rules of R377. -/
def bundleFit (ws : List Word) : Bool :=
  let c := decodeSlot (ws.getD 0 0)
  let v := decodeSlot (ws.getD 2 0)
  let x := decodeSlot (ws.getD 3 0)
  slotFit .c (ws.getD 0 0) && decide (c.op ≠ 0x25) && decide (c.op ≠ 0x28) && !namesCluster c
  && ws.getD 1 0 == 0
  && slotFit .v (ws.getD 2 0) && decide (v.op ≠ 0x76) && decide (v.op ≠ 0x77) && !namesCluster v
  && (ws.getD 3 0 == 0 || renderLegal x)

/-- A program that keeps R377 and the rules of check 5 of Table 02.14. -/
def programFit (ws : List Word) : Bool :=
  let n := ws.length / 4
  (List.range n).all (fun i => bundleFit ((ws.drop (4 * i)).take 4))
  && flowFit (fun i => decodeSlot (ws.getD (4 * i) 0)) n [0]

/-! ### Render cores at work -/

def getRc (s : State) (n : Nat) : RenderSt := Tab.get {} s.cornice.rcs (n - 128)
def setRc (s : State) (n : Nat) (r : RenderSt) : State :=
  setCor s { s.cornice with rcs := Tab.set s.cornice.rcs (n - 128) r }

def renderCores : List Nat := (List.range 8).map (· + 128)

/-- A program begins on a render core at its first bundle, with A1 at the draw's ARG. -/
def renderStart (s : State) (n : Nat) (frag : Bool) (p : PassSt) : State :=
  let s := updCore s n (fun c => { c with
    qv := [], qc := [], hold := .none, loops := [], stopped := false, bundles := 0 })
  let s := writeA s n 1 (PWord.clean (BitVec.ofNat 64 (p.draws.getD 0 (0, 0, 0)).2.2))
  let s := setPc s n (if frag then p.vprog.2 else 0)
  wrb s (Reg.CORE_STATUS n) 0 true

/-- The lane pixels of a primitive's quads inside a rectangle: 2 × 2 quads in row order that hold a covered pixel. -/
def quads (v : List Vertex) (w h x0 y0 x1 y1 : Nat) : List (Nat × Nat) :=
  let on (x y : Nat) : Bool := decide (x < w) && decide (y < h) && Config.covers v w h x y
  ((List.range ((y1 - y0 + 1) / 2)).flatMap (fun j => (List.range ((x1 - x0 + 1) / 2)).map (fun i =>
    (x0 + 2 * i, y0 + 2 * j)))).filter (fun q =>
      on q.1 q.2 || on (q.1 + 1) q.2 || on q.1 (q.2 + 1) || on (q.1 + 1) (q.2 + 1))

/-- Groups of up to `n`. -/
def groupsOf {α : Type} (n : Nat) (l : List α) : List (List α) :=
  (List.range (ceilDiv l.length n)).map (fun i => (l.drop (i * n)).take n)

/-- The batches of a primitive inside a rectangle (R377): up to 16 quads each, one lane a pixel. -/
def batchesOf (p : PassSt) (x : Prim) (x0 y0 x1 y1 : Nat) : List Batch :=
  let w := p.width
  let h := p.height
  (groupsOf 16 (quads x.verts w h x0 y0 x1 y1)).map (fun qs =>
    let px := qs.flatMap (fun q => [(q.1, q.2), (q.1 + 1, q.2), (q.1, q.2 + 1), (q.1 + 1, q.2 + 1)])
    { seq := x.seq, draw := x.draw,
      pix := px.map (fun c => (c.1, c.2, decide (c.1 < w) && decide (c.2 < h) && Config.covers x.verts w h c.1 c.2)),
      b1 := px.map (fun c => Config.pixelValue 0 x.verts w h c.1 c.2),
      b2 := px.map (fun c => Config.pixelValue 1 x.verts w h c.1 c.2),
      depth := px.map (fun c => Config.pixelValue 2 x.verts w h c.1 c.2) })

/-- A tile's rectangle. -/
def tileRect (p : PassSt) (k : Nat) : Nat × Nat × Nat × Nat :=
  let x := k % p.tilesX * 32
  let y := k / p.tilesX * 32
  (x, y, x + 32, y + 32)

/-- The tiles a primitive touches. -/
def tilesOf (p : PassSt) (x : Prim) : List Nat :=
  (List.range p.tileCount).filter (fun k =>
    let (x0, y0, x1, y1) := tileRect p k
    !(quads x.verts p.width p.height x0 y0 x1 y1).isEmpty)

/-! ### Assembly and binning (R378, R379, R383) -/

/-- Twice the signed area of a triangle in homogeneous coordinates, exactly: the determinant of its x, y and w. -/
def areaOf (v : List Vertex) : FVal :=
  let c (i k : Nat) : FVal := fp32.decode ((v.getD i []).getD k 0).toNat
  let term (i j k : Nat) (neg : Bool) : FVal :=
    let m := ((c i 0).mul (c j 1)).mul (c k 3)
    if neg then m.neg else m
  ((term 0 1 2 false).add ((term 1 2 0 false).add (term 2 0 1 false))).add
    ((term 0 2 1 true).add ((term 1 0 2 true).add (term 2 1 0 true)))

/-- Is the primitive culled? -/
def zeroArea (v : List Vertex) : Bool :=
  match areaOf v with
  | .fin _ m _ => m == 0
  | _ => false

/-- Entries of a primitive written in the chunks from entry `used` on; what an entry holds is not given. -/
def binEntries (s : State) (p : PassSt) (n : Nat) : State :=
  forUpTo n (fun i t =>
    let k := p.used + i
    match p.chunks[k / 8192]? with
    | some c => drawn (corPut t false (c + k % 8192 * 8) 8 (freshVal t).toNat)
    | none => t) s

/-- A primitive recorded in the bin of every tile it touches, or waiting for a chunk (R383). -/
def binPrim (s : State) (p : PassSt) (x : Prim) : State :=
  let ts := tilesOf p x
  let s := binEntries s p ts.length
  match s.cornice.pass with
  | none => s
  | some q =>
    if q.phase = .ending then s
    else if p.chunks.length * 8192 < p.used + ts.length then setPass s { p with growPrim := some x }
    else setPass s { p with
      used := p.used + ts.length,
      bins := ts.foldl (fun b k => Tab.upd [] b k (fun l => l ++ [x])) p.bins }

/-- The place after primitive `at_` of the draws. -/
def nextAsm (p : PassSt) (at_ : Nat × Nat) : Nat × Nat :=
  if at_.2 + 5 < (p.draws.getD at_.1 (0, 0, 0)).2.1 then (at_.1, at_.2 + 3) else (at_.1 + 1, 0)

/-- One more primitive assembled in index order; nothing where its vertices are still to come. -/
def assembleOne (s : State) (p : PassSt) : Option State :=
  if p.draws.length ≤ p.asmAt.1 ∨ p.growPrim.isSome = true then none
  else if (p.draws.getD p.asmAt.1 (0, 0, 0)).2.1 < p.asmAt.2 + 3 then
    some (setPass s { p with asmAt := (p.asmAt.1 + 1, 0) })
  else
    let key (i : Nat) : Nat := p.asmAt.1 * 2 ^ 32 + p.asmAt.2 + i
    match Tab.find p.emitted (key 0), Tab.find p.emitted (key 1), Tab.find p.emitted (key 2) with
    | some a, some b, some c =>
      let q := { p with asmAt := nextAsm p p.asmAt }
      if zeroArea [a, b, c] then some (setPass s q)
      else
        let x : Prim := ⟨p.nextSeq, p.asmAt.1, [a, b, c]⟩
        let q := { q with nextSeq := p.nextSeq + 1 }
        if p.phase = .immediate then
          some (setPass s { q with batches := q.batches ++ batchesOf q x 0 0 q.width q.height })
        else if p.firstImm.isSome then some (setPass s { q with prims := q.prims ++ [x] })
        else some (binPrim s q x)
    | _, _, _ => if p.vertDone then some (setPass s { p with asmAt := nextAsm p p.asmAt }) else none

/-- Every primitive whose vertices have come, in sequence. -/
def assemble : Nat → State → State
  | 0, s => s
  | n + 1, s =>
    match s.cornice.pass with
    | none => s
    | some p =>
      if p.phase = .ending then s
      else match assembleOne s p with
        | some t => assemble n t
        | none => s

/-- Primitives of a pass, at most. -/
def primBound (p : PassSt) : Nat := p.draws.foldl (fun n d => n + d.2.1 + 1) 1

/-- Is every primitive assembled? -/
def allAssembled (p : PassSt) : Bool := p.vertDone && decide (p.draws.length ≤ p.asmAt.1) && p.growPrim.isNone

/-- No render core runs a program. -/
def coresIdle (s : State) : Bool := renderCores.all (fun n => !running s n)

/-- A free core takes the fragment program while batches wait (R379, immediate mode). -/
def startFree (s : State) : State :=
  renderCores.foldl (fun t n => match t.cornice.pass with
    | some p => if p.phase = .immediate ∧ ¬ running t n ∧ p.batches ≠ [] then
        renderStart (setRc t n { frag := true }) n true p else t
    | none => t) s

/-- The pass goes on as far as what has ended lets it: from binning to the tiles, from the tiles to what is left for
immediate mode (R384), to the end. -/
def passGo (s : State) : State :=
  match s.cornice.pass with
  | none => s
  | some p =>
    match p.phase with
    | .binning => if allAssembled p then setPass s { p with phase := .tiles } else s
    | .growWait => s
    | .tiles =>
      if p.tileCount ≤ p.tile ∧ coresIdle s then
        (match p.firstImm with
          | none => setPass s { p with phase := .ending }
          | some _ =>
            let q := { p with
              phase := .immediate, prims := [],
              batches := p.prims.flatMap (fun x => batchesOf p x 0 0 p.width p.height) }
            if q.batches = [] ∧ allAssembled q then setPass s { q with phase := .ending } else startFree (setPass s q))
      else s
    | .immediate =>
      if allAssembled p ∧ p.batches = [] ∧ coresIdle s then setPass s { p with phase := .ending } else startFree s
    | .ending => s

/-- Primitives assembled, and the pass moved on. -/
def passTurn (s : State) : State :=
  match s.cornice.pass with
  | none => s
  | some p => passGo (assemble (primBound p) s)

/-! ### Events (R376, Table 14.4) -/

/-- The event ring of a kind of work: base and log2 of its entries, its owner and vector. -/
def evtRing (d : DispPlan) (map : Bool) : (Nat × Nat) × Nat × Nat :=
  if map then (d.mapEventRing, d.mapOwner, d.mapVector) else (d.eventRing, d.owner, d.vector)

/-- EVT_WAIT stands while an event waits for a slot. -/
def evtWait (s : State) : State := wrb s Reg.CORNICE_STATUS 6 (!s.cornice.waiting.isEmpty)

/-- BUSY stands while a pass or a map job is in progress. -/
def corBusy (s : State) : State :=
  wrb s Reg.CORNICE_STATUS 0 (s.cornice.pass.isSome || s.cornice.map.isSome)

/-- What an event that has been written lets go on: a pass or job that ended leaves, a BIN_GROW begins its wait. -/
def afterEvent (s : State) (e : EvtRec) : State :=
  match fld e.w0 7 0 with
  | 1 => corBusy (incWrap (setCor s { s.cornice with pass := none }) Reg.CORNICE_PASSES 64 1)
  | 2 => (match s.cornice.pass with
      | some p => if p.phase = .growWait then setPass s { p with grewAt := some (nowN s) } else s
      | none => s)
  | 4 => corBusy (setCor s { s.cornice with map := none })
  | _ => s

/-- An event written at the ring's tail; none where no slot is free. -/
def writeEvent (s : State) (e : EvtRec) : Option State :=
  match s.cornice.plan with
  | none => none
  | some d =>
    let ((base, log2), owner, vec) := evtRing d e.map
    let t := getNum s base 4
    let h := getNum s (base + 8) 4
    if 2 ^ log2 ≤ ctrDiff t h then none
    else
      let a := base + 64 + t % 2 ^ log2 * 32
      let phase := 1 - t / 2 ^ log2 % 2
      let s := corPut s e.map (a + 8) 8 e.tag.toNat
      let s := corPut s e.map (a + 16) 8 e.time.toNat
      let s := corPut s e.map (a + 24) 8 e.data.toNat
      let s := corPut s e.map a 8 (e.w0.toNat + phase * 65536)
      let s := corPut s e.map base 4 ((t + 1) % 2 ^ 32)
      some (afterEvent (msixDue s owner vec) e)

/-- Events that wait on a ring are written while slots are free. -/
def flushEvents (map : Bool) : Nat → State → State
  | 0, s => s
  | n + 1, s =>
    match s.cornice.waiting.find? (fun e => e.map == map) with
    | none => s
    | some e =>
      match writeEvent (setCor s { s.cornice with waiting := s.cornice.waiting.erase e }) e with
      | none => s
      | some t => flushEvents map n t

/-- Work reaches an event: written if a slot is free and none waits before it. -/
def postEvent (s : State) (e : EvtRec) : State :=
  evtWait (flushEvents e.map (s.cornice.waiting.length + 1)
    (setCor s { s.cornice with waiting := s.cornice.waiting ++ [e] }))

/-- EVENT_SLOT_FREE (R376). -/
def execEventSlotFree (map : Bool) (s : State) : Result :=
  .next (evtWait (flushEvents map s.cornice.waiting.length s))

/-! ### Pass start and end (R376, R378, R391, R393) -/

/-- May the owner's ring be consumed? -/
def ownerOpen (s : State) (fn : Nat) : Bool := instState s fn == 2

/-- The next entry of a job ring, copied whole; HEAD moves on after it. -/
def takeEntry (s : State) (d : DispPlan) (map : Bool) (words : Nat) : Option (List Word) × State :=
  let (base, log2) := if map then d.mapRing else d.passRing
  match corNum s map base 4 with
  | (none, s) => (none, s)
  | (some t, s) =>
    match corNum s map (base + 8) 4 with
    | (none, s) => (none, s)
    | (some h, s) =>
      if t = h then (none, s)
      else
        match corWords s map (base + 64 + h % 2 ^ log2 * (8 * words)) words with
        | (none, s) => (none, corPut s map (base + 8) 4 ((h + 1) % 2 ^ 32))
        | (some ws, s) => (some ws, corPut s map (base + 8) 4 ((h + 1) % 2 ^ 32))

/-- Both programs read; the render cores' instruction stores take them one after the other. -/
def loadPrograms (s : State) (p : PassSt) : Option (List Word) × State :=
  match corWords s false p.vprog.1 (p.vprog.2 * 4) with
  | (none, s) => (none, s)
  | (some v, s) =>
    match corWords s false p.fprog.1 (p.fprog.2 * 4) with
    | (none, s) => (none, s)
    | (some f, s) =>
      if programFit v ∧ programFit f then (some (v ++ f), s) else (none, passStop s 3)

/-- A draw record (R378). -/
def drawRec (s : State) (a : Nat) : Option (Nat × Nat × Nat) × State :=
  match corWords s false a 4 with
  | (none, s) => (none, s)
  | (some ws, s) => (some (fld (ws.getD 0 0) 47 0, fld (ws.getD 1 0) 31 0, fld (ws.getD 2 0) 47 0), s)

/-- A consumed pass is checked, its programs loaded, and it runs, or it ends (PASS_START, R377, R378). -/
def passStart (s : State) (d : DispPlan) (desc : List Word) : State :=
  let p : PassSt := { desc := desc, phase := .binning, start := nowN s }
  let s := corBusy (setPass s p)
  if ¬ descOk d p then passStop s 3
  else
    match loadPrograms s p with
    | (none, s) => s
    | (some code, s) =>
      match forEachOpt (fun i s => drawRec s (p.drawBase.1 + 32 * i)) (List.range p.drawBase.2) s with
      | (none, s) => s
      | (some draws, s) =>
        match corWords s false p.chunkList.1 (if p.tiled then p.chunkList.2 else 0) with
        | (none, s) => s
        | (some chunks, s) =>
          let p := { p with
            draws := draws, chunks := chunks.map (fun w => fld w 47 0),
            phase := if p.tiled then .binning else .immediate }
          let s := setPass s p
          let s := renderCores.foldl (fun t n =>
            renderStart (setRc (setWords t (instrStoreBase n) (code.map PWord.clean)) n {}) n false p) s
          s

/-- PASS_RING_POLL (R376). -/
def execPassRingPoll (s : State) : Result :=
  .next (match s.cornice.plan with
    | none => s
    | some d =>
      if rdb s Reg.CORNICE_CTL 0 ∧ s.cornice.pass.isNone ∧ ownerOpen s d.owner then
        match takeEntry s d false 16 with
        | (some desc, s) => passStart s d desc
        | (none, s) => s
      else s)

/-- MAP_RING_POLL (R376, R389). -/
def execMapRingPoll (s : State) : Result :=
  .next (match s.cornice.plan with
    | none => s
    | some d =>
      if rdb s Reg.CORNICE_CTL 0 ∧ s.cornice.map.isNone ∧ ownerOpen s d.mapOwner then
        match takeEntry s d true 8 with
        | (some desc, s) => corBusy (setMap s { desc := desc })
        | (none, s) => s
      else s)

/-- An event record without PHASE. -/
def evtRec (s : State) (map : Bool) (w0 : Nat) (tag : Word) (d0 d1 : Nat) : EvtRec :=
  ⟨map, BitVec.ofNat 64 w0, tag, now s, BitVec.ofNat 64 (d0 % 2 ^ 32 + d1 * 2 ^ 32)⟩

def getHead (s : State) (h : Nat) : HeadSt := Tab.get {} s.cornice.heads h
def setHead (s : State) (h : Nat) (x : HeadSt) : State :=
  setCor s { s.cornice with heads := Tab.set s.cornice.heads h x }

/-- FLIP_DONE of a head (R391). -/
def flipDone (s : State) (h : Nat) (tag : Word) (dropped : Bool) : State :=
  postEvent s (evtRec s false (3 + b2n dropped * 2 ^ 18 + h * 2 ^ 20) tag 0 0)

/-- The flips of a pass become ready once its writes have been performed; a later one replaces an earlier one. -/
def passFlips (s : State) (p : PassSt) : State :=
  forUpTo 4 (fun h t =>
    if bit (p.w 0) (12 + h) then
      let t := match (getHead t h).next with
        | some (_, tag) => flipDone t h tag true
        | none => t
      setHead t h { getHead t h with next := some (p.target 0, p.w 15) }
    else t) s

/-- PASS_DONE (R393): the pass has ended; its flips are ready if it completed, and its event is written. -/
def execPassDone (s : State) : Result :=
  .next (match s.cornice.pass with
    | none => s
    | some p =>
      if p.phase = .ending ∧ ¬ p.told then
        let s := setPass s { p with told := true }
        let s := if p.status = 0 then passFlips s p else s
        postEvent s (evtRec s false (1 + p.status * 256 + b2n p.firstImm.isSome * 2 ^ 17) (p.w 15) p.skipped
          (p.firstImm.getD 0xFFFFFFFF))
      else s)

/-- PASS_BUDGET_EXPIRY (R378): BUDGET µs after the pass began every program ends. -/
def execPassBudgetExpiry (s : State) : Result :=
  .next (match s.cornice.pass with
    | none => s
    | some p => if p.budget ≠ 0 ∧ p.start + p.budget * 1000 ≤ nowN s then passStop s 4 else s)

/-! ### Bin growth (R383, R384) -/

/-- BIN_GROW: the primitive's entries are discarded and the event is written. -/
def execBinGrow (s : State) : Result :=
  .next (match s.cornice.pass with
    | none => s
    | some p =>
      match p.growPrim with
      | none => s
      | some x =>
        if p.phase = .binning then
          let s := setPass s { p with phase := .growWait, grewAt := none }
          postEvent s (evtRec s false 2 (p.w 15) p.chunks.length x.seq)
        else s)

/-- The immediate fall-back (R384): binning stops at the primitive that waits. -/
def fallBack (s : State) (p : PassSt) : State :=
  match p.growPrim with
  | none => s
  | some x =>
    let s := hwSetBit s Reg.CORNICE_STATUS Reg.CORNICE_EVCNT 3
    passTurn (setPass s { p with
      phase := .tiles, growPrim := none, grewAt := none, firstImm := some x.seq, prims := [x] })

/-- A poll of the grow word: a chunk is taken, NONE or a bad address starts the fall-back, 0 waits on unless the wait
is over. -/
def growPoll (s : State) (p : PassSt) (last : Bool) : State :=
  match s.cornice.plan, p.growPrim with
  | some d, some x =>
    (match corNum s false p.growAddr 8 with
      | (none, s) => s
      | (some w, s) =>
        let a := w % 2 ^ 48
        if w = 0 then (if last then fallBack s p else s)
        else if w / 2 ^ 63 = 0 ∧ a % 0x10000 = 0 ∧ inWin d true a 0x10000 then
          let s := corPut s false p.growAddr 8 0
          (match s.cornice.pass with
            | some q => if q.phase = .ending then s
              else
                let q := { p with phase := .binning, growPrim := none, grewAt := none, chunks := p.chunks ++ [a] }
                passTurn (binPrim (incSat (setPass s q) Reg.CORNICE_GROWS 32 1) q x)
            | none => s)
        else fallBack s p)
  | _, _ => s

/-- GROW_POLL (R383): every 1 µs up to the end of the wait. -/
def execGrowPoll (s : State) : Result :=
  .next (match s.cornice.pass with
    | none => s
    | some p =>
      match p.grewAt with
      | some t => if p.phase = .growWait ∧ nowN s ≤ t + p.growWait * 1000 then growPoll s p false else s
      | none => s)

/-- GROW_WAIT_EXPIRY (R383): the poll at the expiry instant still counts. -/
def execGrowWaitExpiry (s : State) : Result :=
  .next (match s.cornice.pass with
    | none => s
    | some p =>
      match p.grewAt with
      | some t => if p.phase = .growWait ∧ t + p.growWait * 1000 ≤ nowN s then growPoll s p true else s
      | none => s)

/-! ### Tiles (R379, R380) -/

/-- The pixels of tile `k` inside the target, in row order: place in the tile, x and y. -/
def tilePixels (p : PassSt) (k : Nat) : List (Nat × Nat × Nat) :=
  let (x0, y0, _, _) := tileRect p k
  ((List.range 1024).map (fun i => (i, x0 + i % 32, y0 + i / 32))).filter
    (fun c => decide (c.2.1 < p.width) && decide (c.2.2 < p.height))

/-- The address of a target's pixel. -/
def pixAddr (p : PassSt) (t x y : Nat) : Nat := p.target t + y * p.pitch + x * 4

/-- A pixel word read from a target in memory. -/
def pixRead (s : State) (p : PassSt) (t x y : Nat) : Option (BitVec 32 × Bool) × State :=
  match corRead s false (pixAddr p t x y) 4 with
  | (some bs, s) => (some (BitVec.ofNat 32 (ofBytesLE (bs.map (·.1))), bs.any (·.2)), s)
  | (none, s) => (none, s)

/-- A pixel word written to a target in memory. -/
def pixWrite (s : State) (p : PassSt) (t x y : Nat) (v : BitVec 32 × Bool) : Bool × State :=
  corWrite s false (pixAddr p t x y) ((bytesLE 4 v.1.toNat).map (fun b => (b, v.2)))

/-- A target's part of a tile, loaded from memory or filled with CLEAR. -/
def tileLoad (s : State) (p : PassSt) (k t : Nat) : Option (List (Nat × (BitVec 32 × Bool))) × State :=
  if bit (p.w 0) (8 + t) then
    forEachOpt (fun c s => match pixRead s p t c.2.1 c.2.2 with
      | (some v, s) => (some (t * 1024 + c.1, v), s)
      | (none, s) => (none, s)) (tilePixels p k) s
  else (some ((tilePixels p k).map (fun c => (t * 1024 + c.1, (BitVec.ofNat 32 p.clear, false)))), s)

/-- TILE_DISPATCH (R379): the next tile goes to the free core with the lowest number, which loads or clears it and
begins the fragment program on its bin. -/
def execTileDispatch (s : State) : Result :=
  .next (match s.cornice.pass with
    | none => s
    | some p =>
      match renderCores.find? (fun n => !running s n) with
      | none => s
      | some n =>
        if p.phase = .tiles ∧ p.tile < p.tileCount then
          match forEachOpt (fun t s => tileLoad s p p.tile t) (List.range p.targets) s with
          | (none, s) => s
          | (some ls, s) =>
            let (x0, y0, x1, y1) := tileRect p p.tile
            let work := (Tab.get [] p.bins p.tile).flatMap (fun x => batchesOf p x x0 y0 x1 y1)
            let s := setPass s { p with tile := p.tile + 1 }
            let s := setRc s n { frag := true, tile := some p.tile, work := work,
                                 pix := ls.flatten.foldl (fun m e => Tab.set m e.1 e.2) [] }
            renderStart s n true p
        else s)

/-- The signature of a target's part of a tile (R380). -/
def tileSig (p : PassSt) (r : RenderSt) (k t : Nat) : Word :=
  (crc64 0 ((tilePixels p k).flatMap (fun c => bytesLE 4 (Tab.get (0, false) r.pix (t * 1024 + c.1)).1.toNat))) ||| 1

/-- A target's part of a tile written back, or skipped (TILE_WRITE_BACK, R380): the signature follows the writes. -/
def tileBack (s : State) (p : PassSt) (r : RenderSt) (k t : Nat) : Option Bool × State :=
  let a := p.sigBase + (t * p.tileCount + k) * 8
  let write (s : State) : Option (List Unit) × State :=
    forEachOpt (fun c s => match pixWrite s p t c.2.1 c.2.2 (Tab.get (0, false) r.pix (t * 1024 + c.1)) with
      | (true, s) => (some (), s)
      | (false, s) => (none, s)) (tilePixels p k) s
  if p.skipEn then
    match corNum s false a 8 with
    | (none, s) => (none, s)
    | (some old, s) =>
      if old = (tileSig p r k t).toNat then (some true, incSat s Reg.CORNICE_SKIPPED 32 1)
      else match write s with
        | (none, s) => (none, s)
        | (some _, s) => (some false, corPut s false a 8 (tileSig p r k t).toNat)
  else match write s with
    | (none, s) => (none, s)
    | (some _, s) => (some false, s)

/-- Every target's part of a core's tile. -/
def tileEnd (s : State) (p : PassSt) (n k : Nat) : State :=
  let r := getRc s n
  match forEachOpt (fun t s => tileBack s p r k t) (List.range p.targets) s with
  | (none, s) => s
  | (some bs, s) => match s.cornice.pass with
    | some q => setPass s { q with skipped := q.skipped + (bs.filter id).length }
    | none => s

/-! ### The render instructions (Table 14.2) -/

/-- A vector register of 64 lanes of 32 bits with their poison. -/
def vOfLanes (l : List (Nat × Bool)) : VReg := ⟨packLanes 32 (l.map (·.1)), poisonBits 32 (l.map (·.2))⟩

/-- The 64 lanes of a register. -/
def vLanes (s : State) (n i : Nat) : List Nat := lanesOf (.int 32 false) (readV s n i)

/-- 64 lanes, those not listed 0. -/
def lanes64 (l : List Nat) : List Nat := (List.range 64).map (fun i => l.getD i 0)

/-- The next group of vertices (draw, first index, count), past draws without any. -/
def nextGroup (p : PassSt) : Nat → Nat × Nat → Option (Nat × Nat × Nat)
  | 0, _ => none
  | f + 1, (d, i) =>
    if p.draws.length ≤ d then none
    else
      let n := (p.draws.getD d (0, 0, 0)).2.1
      if i < n then some (d, i, if n - i < 64 then n - i else 64) else nextGroup p f (d + 1, 0)

/-- VFETCH: none remains leaves S2 clear and S4 at 1. -/
def vfetchOp (s : State) (n : Nat) (p : PassSt) : State :=
  match nextGroup p (p.draws.length + 1) p.fetchAt with
  | none => writeS (writeS (setRc s n { getRc s n with group := none }) n 2 (PWord.clean 0)) n 4 (PWord.clean 1)
  | some (d, i, c) =>
    let dr := p.draws.getD d (0, 0, 0)
    match forEachOpt (fun k s => corRead s false (dr.1 + 4 * (i + k)) 4) (List.range c) s with
    | (none, s) => s
    | (some bss, s) =>
      let s := setPass s { p with fetchAt := (d, i + c) }
      let s := setRc s n { getRc s n with group := some (d, i, c) }
      let lane (k : Nat) : Nat × Bool := match bss[k]? with
        | some bs => (ofBytesLE (bs.map (·.1)), bs.any (·.2))
        | none => (0, false)
      let s := writeV s n 0 (vOfLanes ((List.range 64).map lane))
      let s := writeA s n 1 (PWord.clean (BitVec.ofNat 64 dr.2.2))
      let s := writeS s n 2 (PWord.clean (BitVec.ofNat 64 (2 ^ c - 1)))
      let s := writeS s n 3 (PWord.clean (BitVec.ofNat 64 d))
      writeS s n 4 (PWord.clean 0)

/-- VEMIT: the lanes in S2 of the group fetched. -/
def vemitOp (s : State) (n a : Nat) (p : PassSt) : State :=
  let mask := readS s n 2
  let regs := (List.range 8).map (fun k => readV s n (a + k))
  if mask.p then poisonConsumed s n 0
  else
    match (getRc s n).group with
    | none => s
    | some (d, i, c) =>
      let on := (List.range c).filter (fun k => bit mask.v k)
      if on.any (fun k => regs.any (fun r => lanePoison r 32 k)) then poisonConsumed s n 0
      else
        let vs := regs.map (lanesOf (.int 32 false))
        let em := on.foldl (fun t k =>
          Tab.set t (d * 2 ^ 32 + i + k) (vs.map (fun l => BitVec.ofNat 32 (l.getD k 0)))) p.emitted
        passTurn (setPass s { p with emitted := em })

/-- A core releases its batch (R382). -/
def releaseBatch (s : State) (n : Nat) : State := setRc s n { getRc s n with released := true, acquired := false }

/-- A batch in the registers of R377. -/
def giveBatch (s : State) (n : Nat) (p : PassSt) (b : Batch) : State :=
  let cov := (List.range 64).filter (fun i => (b.pix.getD i (0, 0, false)).2.2)
  let s := writeV s n 0 (vOfLanes ((lanes64 (b.pix.map (fun c => c.1 + c.2.1 * 65536))).map (fun x => (x, false))))
  let s := writeV s n 1 (vOfLanes ((lanes64 (b.b1.map (·.toNat))).map (fun x => (x, false))))
  let s := writeV s n 2 (vOfLanes ((lanes64 (b.b2.map (·.toNat))).map (fun x => (x, false))))
  let s := writeV s n 3 (vOfLanes ((lanes64 (b.depth.map (·.toNat))).map (fun x => (x, false))))
  let s := writeA s n 1 (PWord.clean (BitVec.ofNat 64 (p.draws.getD b.draw (0, 0, 0)).2.2))
  let s := writeS s n 1 (PWord.clean (BitVec.ofNat 64 b.seq))
  let s := writeS s n 2 (PWord.clean (BitVec.ofNat 64 (cov.foldl (fun m i => m + 2 ^ i) 0)))
  let s := writeS s n 3 (PWord.clean (BitVec.ofNat 64 b.draw))
  writeS s n 4 (PWord.clean 0)

/-- No batch remains for this core. -/
def noBatch (s : State) (n : Nat) : State :=
  let s := setRc s n { getRc s n with batch := none }
  writeS (writeS s n 2 (PWord.clean 0)) n 4 (PWord.clean 1)

/-- RFETCH: releases the last batch and takes the next one, of the core's tile or of immediate mode; it waits while
immediate mode may still bring one. -/
def rfetchOp (s : State) (n : Nat) (p : PassSt) : Option State :=
  let s := releaseBatch s n
  let r := getRc s n
  if r.tile.isSome ∨ p.phase ≠ .immediate then
    match r.work with
    | [] => some (noBatch s n)
    | b :: bs =>
      some (giveBatch (setRc s n { r with work := bs, batch := some b, acquired := false, released := false }) n p b)
  else
    match p.batches with
    | [] => if allAssembled p then some (noBatch s n) else none
    | b :: bs =>
      let s := setRc s n { r with batch := some b, acquired := false, released := false }
      some (giveBatch (setPass s { p with batches := bs }) n p b)

/-- The covered pixels of a batch. -/
def coveredOf (b : Batch) : List (Nat × Nat) := b.pix.filterMap (fun c => if c.2.2 then some (c.1, c.2.1) else none)

/-- Must an acquire wait (R381)? In immediate mode, until every batch with a lower sequence number that covers one of
the pixels has released it. -/
def mustWait (s : State) (n : Nat) (b : Batch) : Bool :=
  renderCores.any (fun m => decide (m ≠ n) && (match (getRc s m).batch with
    | some x => !(getRc s m).released && decide (x.seq < b.seq) &&
        (coveredOf x).any (fun c => (coveredOf b).contains c)
    | none => false))

/-- A core acquires its batch's pixels, or has to wait. -/
def acquire (s : State) (n : Nat) (b : Batch) : Option State :=
  if (getRc s n).acquired then some s
  else if (getRc s n).tile.isNone && mustWait s n b then none
  else some (setRc s n { getRc s n with acquired := true })

/-- The place of a pixel in its tile. -/
def tilePlace (t x y : Nat) : Nat := t * 1024 + y % 32 * 32 + x % 32

/-- PXLD: covered lanes take the target's pixel. -/
def pxldOp (s : State) (n d t : Nat) (p : PassSt) : Option State :=
  match (getRc s n).batch with
  | none => some (writeV s n d {})
  | some b =>
    match acquire s n b with
    | none => none
    | some s =>
      let r := getRc s n
      some (match forEachOpt (fun i s =>
          let c := b.pix.getD i (0, 0, false)
          if c.2.2 then
            (match r.tile with
              | some _ => (some (Tab.get (0, false) r.pix (tilePlace t c.1 c.2.1)), s)
              | none => pixRead s p t c.1 c.2.1)
          else (some (0, false), s)) (List.range 64) s with
        | (none, s) => s
        | (some vs, s) => writeV s n d (vOfLanes (vs.map (fun v => (v.1.toNat, v.2)))))

/-- Immediate mode sets the signature entry of a tile it writes to 0 (R380). -/
def clearSig (s : State) (p : PassSt) (t x y : Nat) : State :=
  corPut s false (p.sigBase + (t * p.tileCount + (y / 32 * p.tilesX + x / 32)) * 8) 8 0

/-- PXST: covered lanes go to the target; after the release it writes nothing and sets LATE_PX. -/
def pxstOp (s : State) (n a t : Nat) (p : PassSt) : Option State :=
  match (getRc s n).batch with
  | none => some (hwSetBit s Reg.CORNICE_STATUS Reg.CORNICE_EVCNT 5)
  | some b =>
    if (getRc s n).released then some (hwSetBit s Reg.CORNICE_STATUS Reg.CORNICE_EVCNT 5)
    else match acquire s n b with
      | none => none
      | some s =>
        let v := readV s n a
        let val (i : Nat) : BitVec 32 × Bool :=
          (BitVec.ofNat 32 ((lanesOf (.int 32 false) v).getD i 0), lanePoison v 32 i)
        let on := (List.range 64).filter (fun i => (b.pix.getD i (0, 0, false)).2.2)
        match (getRc s n).tile with
        | some _ =>
          let r := getRc s n
          some (setRc s n { r with
            pix := on.foldl (fun m i =>
              let c := b.pix.getD i (0, 0, false)
              Tab.set m (tilePlace t c.1 c.2.1) (val i)) r.pix })
        | none =>
          some (on.foldl (fun s i =>
            match s.cornice.pass with
            | some q =>
              if q.phase = .ending then s
              else
                let c := b.pix.getD i (0, 0, false)
                (match pixWrite s p t c.1 c.2.1 (val i) with
                  | (true, s) => clearSig s p t c.1 c.2.1
                  | (false, s) => s)
            | none => s) s)

/-- END: the program ends on this core once what it queued has ended; the batch is released, the tile written back. -/
def endOp (s : State) (n : Nat) (p : PassSt) : Option State :=
  if (getCore s n).qv ≠ [] then none
  else
    let s := releaseBatch s n
    let s := match (getRc s n).tile with
      | some k => tileEnd s p n k
      | none => s
    let s := wrb (updCore s n (fun c => { c with qv := [], qc := [], hold := .none })) (Reg.CORE_STATUS n) 0 false
    let s := setRc s n {}
    match s.cornice.pass with
    | none => some s
    | some q =>
      let vd := q.vertDone || renderCores.all (fun m => !running s m || (getRc s m).frag)
      some (passTurn (setPass s { q with vertDone := vd }))

/-! ### Textures (R385, R386) -/

/-- A texture descriptor. -/
structure Texture where
  base : Nat
  w : Nat
  h : Nat
  fmt : Nat
  levels : Nat
  wrap : Nat
  filter : Nat
deriving DecidableEq, Repr

def texOf (ws : List Word) : Texture :=
  let f (i hi lo : Nat) : Nat := fld (ws.getD i 0) hi lo
  ⟨f 0 47 0, f 1 13 0, f 1 29 16, f 1 35 32, f 1 39 36, f 1 41 40, f 1 43 42⟩

/-- No field holds a reserved value. -/
def Texture.ok (t : Texture) : Bool :=
  decide (1 ≤ t.w) && decide (t.w ≤ 8192) && decide (1 ≤ t.h) && decide (t.h ≤ 8192) && decide (t.fmt ≤ 5) &&
    decide (1 ≤ t.levels) && decide (t.levels ≤ 14) && decide (t.wrap ≤ 2) && decide (t.filter ≤ 2)

/-- Bytes per texel. -/
def Texture.bpt (t : Texture) : Nat :=
  match t.fmt with
  | 0 => 4
  | 1 => 1
  | 2 => 2
  | 3 => 8
  | 4 => 2
  | _ => 4

def levelSize (x l : Nat) : Nat := if x / 2 ^ l = 0 then 1 else x / 2 ^ l

/-- LB(l). -/
def Texture.levelBase (t : Texture) (l : Nat) : Nat :=
  (List.range l).foldl (fun a k =>
    a + ceilDiv (levelSize t.w k) 64 * ceilDiv (levelSize t.h k) 64 * 4096 * t.bpt) t.base

/-- The bits of x and y interleaved, x_i at bit 2i. -/
def morton (x y : Nat) : Nat :=
  (List.range 6).foldl (fun a i => a + x / 2 ^ i % 2 * 2 ^ (2 * i) + y / 2 ^ i % 2 * 2 ^ (2 * i + 1)) 0

/-- The address of texel (x, y) of level l. -/
def Texture.addr (t : Texture) (l x y : Nat) : Nat :=
  t.levelBase l + ((y / 64 * ceilDiv (levelSize t.w l) 64 + x / 64) * 4096 + morton (x % 64) (y % 64)) * t.bpt

/-- WRAP on a texel index. -/
def wrapIdx (wrap n : Nat) (i : Int) : Nat :=
  match wrap with
  | 0 => (i % (n : Int)).toNat
  | 1 => if i < 0 then 0 else if (n : Int) ≤ i then n - 1 else i.toNat
  | _ =>
    let j := (i % (2 * n : Nat)).toNat
    if j < n then j else 2 * n - 1 - j

/-- n/255 in FP32. -/
def unorm (n : Nat) : Nat :=
  fp32.encode .rne (.fin false (2 * (n * 2 ^ 64 / 255) + (if n * 2 ^ 64 % 255 = 0 then 0 else 1)) (-65))

/-- The four channels of a texel's bytes. -/
def texChannels (fmt : Nat) (b : List Nat) : List Nat :=
  let u (i : Nat) : Nat := unorm (b.getD i 0)
  let h (i : Nat) : Nat := fp32.encode .rne (fp16.decode (b.getD (2 * i) 0 + 256 * b.getD (2 * i + 1) 0))
  let one := 0x3F800000
  match fmt with
  | 0 => [u 0, u 1, u 2, u 3]
  | 1 => [u 0, 0, 0, one]
  | 2 => [u 0, u 1, 0, one]
  | 3 => [h 0, h 1, h 2, h 3]
  | 4 => [h 0, 0, 0, one]
  | _ => [b.getD 0 0 + 256 * b.getD 1 0 + 65536 * b.getD 2 0 + 16777216 * b.getD 3 0, 0, 0, one]

/-- The four channels of a texel, with its poison. -/
def texel (s : State) (t : Texture) (l : Nat) (x y : Int) : Option (List Nat × Bool) × State :=
  let xi := wrapIdx t.wrap (levelSize t.w l) x
  let yi := wrapIdx t.wrap (levelSize t.h l) y
  match corRead s false (t.addr l xi yi) t.bpt with
  | (none, s) => (none, s)
  | (some bs, s) => (some (texChannels t.fmt (bs.map (fun b => b.1.toNat)), bs.any (·.2)), s)

def fp32Mul (a b : FVal) : FVal := fp32.decode (fp32.encode .rne (a.mul b))
def fp32Add (a b : FVal) : FVal := fp32.decode (fp32.encode .rne (a.add b))

/-- ⌊v⌋ of a finite value. -/
def FVal.floor : FVal → Option Int
  | .fin n m e => some (if 0 ≤ e then sgnInt n m * 2 ^ e.toNat else sgnInt n m / 2 ^ (-e).toNat)
  | _ => none

def fHalf : FVal := .fin false 1 (-1)

/-- The texels around a coordinate of a level, with the fractions between them. -/
def footprint (t : Texture) (l : Nat) (u v : FVal) : Option (List (Int × Int) × List Nat) :=
  let cu := fp32Mul u (.ofInt (levelSize t.w l))
  let cv := fp32Mul v (.ofInt (levelSize t.h l))
  if t.filter = 0 then
    match cu.floor, cv.floor with
    | some x, some y => some ([(x, y)], [])
    | _, _ => none
  else
    let bu := fp32Add cu fHalf.neg
    let bv := fp32Add cv fHalf.neg
    match bu.floor, bv.floor with
    | some x, some y => some ([(x, y), (x + 1, y), (x, y + 1), (x + 1, y + 1)],
        [fp32.encode .rne (fp32Add bu (FVal.ofInt x).neg), fp32.encode .rne (fp32Add bv (FVal.ofInt y).neg)])
    | _, _ => none

/-- The levels a lane reads, and the fraction between two. -/
def texLevels (t : Texture) (lod : FVal) : Option (List Nat × List Nat) :=
  let c := (lod.max (.ofInt 0)).min (.ofInt (t.levels - 1))
  if t.filter = 2 then
    match c.floor with
    | some k => some (if k.toNat + 1 < t.levels then [k.toNat, k.toNat + 1] else [k.toNat, k.toNat],
        [fp32.encode .rne (fp32Add c (FVal.ofInt k).neg)])
    | none => none
  else match (fp32Add c fHalf).floor with
    | some k => some ([if k.toNat < t.levels then k.toNat else t.levels - 1], [])
    | none => none

/-- Four open values. -/
def freeLane (s : State) : List (Nat × Bool) × State :=
  ((List.range 4).map (fun i => (fld (Config.freeWord (s.free + i)) 31 0, false)), { s with free := s.free + 4 })

/-- One lane of TEX: a NaN coordinate gives 0; a coordinate or level the rules give no texel for gives open values. -/
def texLane (t : Texture) (u v lod : Nat) (s : State) : Option (List (Nat × Bool)) × State :=
  let fu := fp32.decode u
  let fv := fp32.decode v
  if fu = .nan ∨ fv = .nan then (some (List.replicate 4 (0, false)), s)
  else
    match texLevels t (fp32.decode lod) with
    | none => let (r, s) := freeLane s; (some r, s)
    | some (ls, fz) =>
      match ls.mapM (fun l => (footprint t l fu fv).map (fun x => (l, x))) with
      | none => let (r, s) := freeLane s; (some r, s)
      | some fps =>
        let pts := fps.flatMap (fun f => f.2.1.map (fun c => (f.1, c)))
        let fr := fz ++ fps.flatMap (fun f => f.2.2)
        match forEachOpt (fun c s => texel s t c.1 c.2.1 c.2.2) pts s with
        | (none, s) => (none, s)
        | (some ts, s) =>
          let p := ts.any (·.2)
          (some ((List.range 4).map (fun k =>
            let vals := ts.map (fun x => x.1.getD k 0)
            (match vals with
              | [x] => x
              | _ => Config.texBlend fr vals % 2 ^ 32, p))), s)

/-- TEX (R386): a slot without a descriptor, or one with a reserved value, gives open values. -/
def texOp (s : State) (n d a b c : Nat) (slot : Nat) (p : PassSt) : State :=
  if (readV s n a).p ≠ 0 ∨ (readV s n b).p ≠ 0 ∨ (readV s n c).p ≠ 0 then poisonConsumed s n 0
  else
    let put (s : State) (ls : List (List (Nat × Bool))) : State :=
      forUpTo 4 (fun k s => writeV s n (d + k) (vOfLanes (ls.map (fun l => l.getD k (0, false))))) s
    let open_ (s : State) : State :=
      match forEachOpt (fun _ s => let (r, s) := freeLane s; (some r, s)) (List.range 64) s with
      | (some ls, s) => put s ls
      | (none, s) => s
    if p.tex.2 ≤ slot then open_ s
    else
      match corWords s false (p.tex.1 + 32 * slot) 4 with
      | (none, s) => s
      | (some ws, s) =>
        if (texOf ws).ok then
          let us := vLanes s n a
          let vs := vLanes s n b
          let ds := vLanes s n c
          (match forEachOpt (fun i s => texLane (texOf ws) (us.getD i 0) (vs.getD i 0) (ds.getD i 0) s)
              (List.range 64) s with
            | (none, s) => s
            | (some ls, s) => put s ls)
        else open_ s

/-! ### Rays (R387-R389) -/

/-- A ray: origin x, y, z, direction x, y, z, tmin, tmax. -/
abbrev Ray := List Nat

/-- A hit: t, triangle index, ID, u, v. -/
structure Hit where
  t : Nat
  tri : Nat
  id : Nat
  u : Nat
  v : Nat
deriving DecidableEq, Repr

def missWords : List Nat := [0x7F800000, 0xFFFFFFFF, 0, 0]

/-- Is a ≤ b for two values that are not NaN? -/
def fle (a b : FVal) : Bool := decide (a ≠ .nan) && decide (b ≠ .nan) && decide (a.cmp b ≤ 0)

/-- A ray that misses whatever the memory holds: a NaN component, or tmin above tmax. -/
def deadRay (r : Ray) : Bool :=
  r.any (fun x => fp32.decode x == .nan) || !fle (fp32.decode (r.getD 6 0)) (fp32.decode (r.getD 7 0))

/-- Does the test's answer hit (R388)? -/
def isHit (r : Ray) (t u v : Nat) : Bool :=
  let ft := fp32.decode t
  let fu := fp32.decode u
  let fv := fp32.decode v
  fle (fp32.decode (r.getD 6 0)) ft && fle ft (fp32.decode (r.getD 7 0)) && fle (.ofInt 0) fu && fle (.ofInt 0) fv &&
    fle (fu.add fv) (.ofInt 1)

/-- The better of two hits: smaller t, then lower triangle index. -/
def betterHit (a b : Hit) : Bool :=
  let z := (fp32.decode a.t).cmp (fp32.decode b.t)
  decide (z < 0) || (decide (z = 0) && decide (a.tri < b.tri))

/-- 32-bit numbers of clean bytes. -/
def nums32 (bs : List (Byte × Bool)) : List Nat :=
  (List.range (bs.length / 4)).map (fun i => ofBytesLE (((bs.drop (4 * i)).take 4).map (·.1)))

/-- A clean read of 32-bit numbers; poison ends the work. -/
def corNums (s : State) (map : Bool) (a n : Nat) : Option (List Nat) × State :=
  match corRead s map a (4 * n) with
  | (none, s) => (none, s)
  | (some bs, s) => if bs.any (·.2) then (none, corPoison s map a) else (some (nums32 bs), s)

/-- The triangles of a leaf tested in order. -/
def leafHits (map any : Bool) (triBase : Nat) (r : Ray) : List Nat → Option Hit → State → Option (Option Hit) × State
  | [], best, s => (some best, s)
  | i :: is, best, s =>
    if any && best.isSome then (some best, s)
    else
      match corNums s map (triBase + 48 * i) 10 with
      | (none, s) => (none, s)
      | (some t, s) =>
        let (x, u, v) := Config.rayTri r (t.take 9)
        let h : Hit := ⟨x % 2 ^ 32, i, t.getD 9 0, u % 2 ^ 32, v % 2 ^ 32⟩
        let best := if isHit r h.t h.u h.v then
            (match best with
              | none => some h
              | some b => if betterHit h b then some h else some b)
          else best
        leafHits map any triBase r is best s

/-- A child put where its box entry ranks it; equal entries keep the lower slot first. -/
def insertChild (c : Nat × Nat × Nat × Nat) : List (Nat × Nat × Nat × Nat) → List (Nat × Nat × Nat × Nat)
  | [] => [c]
  | x :: xs => if (fp32.decode c.1).cmp (fp32.decode x.1) < 0 then c :: x :: xs else x :: insertChild c xs

/-- The children of a node that the ray's box test admits, nearest entry first: entry, kind, triangle count, index. -/
def nodeChildren (r : Ray) (w : List Nat) : List (Nat × Nat × Nat × Nat) :=
  (List.range 4).foldl (fun l i =>
    let c := w.getD (24 + i) 0
    if c % 4 = 1 ∨ c % 4 = 2 then
      (match Config.boxEntry r ((w.drop (6 * i)).take 6) with
        | some e => insertChild (e % 2 ^ 32, c % 4, c / 4 % 64, c / 256) l
        | none => l)
    else l) []

/-- Traversal from a stack of children still to visit. -/
def traverse (map any : Bool) (bvh triBase : Nat) (r : Ray) :
    Nat → List (Nat × Nat × Nat) → Option Hit → State → Option (Option Hit) × State
  | 0, _, best, s => (some best, s)
  | _, [], best, s => (some best, s)
  | f + 1, (k, n, i) :: st, best, s =>
    if any && best.isSome then (some best, s)
    else if k = 2 then
      match leafHits map any triBase r ((List.range n).map (· + i)) best s with
      | (none, s) => (none, s)
      | (some b, s) => traverse map any bvh triBase r f st b s
    else
      match corNums s map (bvh + 128 * i) 28 with
      | (none, s) => (none, s)
      | (some w, s) =>
        traverse map any bvh triBase r f ((nodeChildren r w).map (fun c => (c.2.1, c.2.2.1, c.2.2.2)) ++ st) best s

/-- One ray traced: t, ID, u and v. -/
def traceRay (map any : Bool) (bvh triBase : Nat) (r : Ray) (s : State) : Option (List Nat) × State :=
  let s := incWrap s Reg.CORNICE_RAYS 64 1
  if deadRay r then (some missWords, s)
  else
    match traverse map any bvh triBase r (2 ^ 27) [(1, 0, 0)] none s with
    | (none, s) => (none, s)
    | (some none, s) => (some missWords, s)
    | (some (some h), s) => (some [h.t, h.id, h.u, h.v], s)

/-- RAY: closest hit on 64 lanes. Where a pass gives the bases is not said: they are open values. -/
def rayOp (s : State) (n d a : Nat) : State :=
  if (List.range 8).any (fun k => (readV s n (a + k)).p ≠ 0) then poisonConsumed s n 0
  else
    let bvh := fld (Config.freeWord s.free) 47 0
    let tri := fld (Config.freeWord (s.free + 1)) 47 0
    let s := { s with free := s.free + 2 }
    let regs := (List.range 8).map (fun k => vLanes s n (a + k))
    match forEachOpt (fun i s => traceRay false false bvh tri (regs.map (fun l => l.getD i 0)) s) (List.range 64) s with
    | (none, s) => s
    | (some hs, s) =>
      forUpTo 4 (fun k s => writeV s n (d + k) (vOfLanes (hs.map (fun h => (h.getD k 0, false))))) s

/-- MAP_JOB (R389): every ray in order, each hit written, then MAP_DONE; COUNT 0 is a bad descriptor. -/
def mapRun (s : State) (m : MapSt) : State :=
  let f (i hi lo : Nat) : Nat := fld (m.desc.getD i 0) hi lo
  let count := f 4 23 0
  if count = 0 then mapStop s 3
  else
    let r := forEachOpt (fun k s =>
      match corNums s true (f 2 47 0 + 32 * k) 8 with
      | (none, s) => (none, s)
      | (some w, s) =>
        let ray := [w.getD 0 0, w.getD 1 0, w.getD 2 0, w.getD 4 0, w.getD 5 0, w.getD 6 0, w.getD 3 0, w.getD 7 0]
        (match traceRay true (bit (m.desc.getD 4 0) 24) (f 0 47 0) (f 1 47 0) ray s with
          | (none, s) => (none, s)
          | (some h, s) =>
            (match corWrite s true (f 3 47 0 + 16 * k) ((h.flatMap (bytesLE 4)).map (fun b => (b, false))) with
              | (true, s) => (some (), s)
              | (false, s) => (none, s)))) (List.range count) s
    match r with
    | (some _, s) => mapStop s 0
    | (none, s) => s

/-- The map job's event. -/
def mapTell (s : State) : State :=
  match s.cornice.map with
  | none => s
  | some m =>
    if m.told then s
    else
      let s := setMap s { m with told := true }
      postEvent s (evtRec s true (4 + m.status * 256) (m.desc.getD 6 0) 0 0)

def execMapJob (s : State) : Result :=
  .next (match s.cornice.map with
    | none => s
    | some m => if m.done then s else mapTell (mapRun s m))

/-! ### The render unit's queue -/

/-- One render instruction: the state after it, or none while it has to wait. -/
def renderInsn (s : State) (n : Nat) (x : Insn) : Option State :=
  match s.cornice.pass with
  | none => some s
  | some p =>
    if renderLegal x then
      match x.op with
      | 0xE0 => some (vfetchOp s n p)
      | 0xE1 => some (vemitOp s n x.a p)
      | 0xE2 => rfetchOp s n p
      | 0xE3 => some (texOp s n x.d x.a x.b x.c x.imm.toNat p)
      | 0xE4 => pxldOp s n x.d x.imm.toNat p
      | 0xE5 => pxstOp s n x.a x.imm.toNat p
      | 0xE6 => some (releaseBatch s n)
      | 0xE7 => some (rayOp s n x.d x.a)
      | _ => endOp s n p
    else some (badop s n)

/-- The V registers, and the S registers as 32 + i, that an instruction writes; a V slot unless `x`. -/
def writesOf (xslot : Bool) (i : Insn) : List Nat :=
  if xslot then
    match i.op with
    | 0xE0 => [0, 34, 35, 36]
    | 0xE2 => [0, 1, 2, 3, 33, 34, 35, 36]
    | 0xE3 => (List.range 4).map (i.d + ·)
    | 0xE4 => [i.d]
    | 0xE7 => (List.range 4).map (i.d + ·)
    | _ => []
  else
    match vRows.find? (fun r => r.op == i.op) with
    | some r => if r.d = .v then [i.d] else if r.d = .s then [32 + i.d] else []
    | none => []

/-- The registers an instruction reads when it issues. -/
def readsOf (xslot : Bool) (i : Insn) : List Nat :=
  if xslot then
    match i.op with
    | 0xE1 => 34 :: (List.range 8).map (i.a + ·)
    | 0xE3 => [i.a, i.b, i.c]
    | 0xE5 => [i.a]
    | 0xE7 => (List.range 8).map (i.a + ·)
    | _ => []
  else
    match vRows.find? (fun r => r.op == i.op) with
    | some r => (if r.a = .v then [i.a] else []) ++ (if r.b = .v then [i.b] else []) ++ (if r.c = .v then [i.c] else [])
    | none => []

/-- The register interlock of R377: does an earlier instruction of the other unit still have to write a register that
this one reads or writes? -/
def interlocked (xslot : Bool) (q : QEntry) (other : List QEntry) : Bool :=
  let i := decodeSlot q.slot
  other.any (fun o => decide (o.seq < q.seq) && (writesOf (!xslot) (decodeSlot o.slot)).any (fun r =>
    (writesOf xslot i).contains r || (readsOf xslot i).contains r))

/-- The head of the render unit's queue runs, or stays there. -/
def renderHead (s : State) (n : Nat) : State :=
  match (getCore s n).qc with
  | [] => s
  | q :: rest =>
    if interlocked true q (getCore s n).qv then s
    else match renderInsn (updCore s n (fun c => { c with qc := rest })) n (decodeSlot q.slot) with
      | some t => t
      | none => s

/-- The head of a render core's VXE queue runs unless the interlock holds it. -/
def renderVHead (s : State) (n : Nat) : State :=
  match (getCore s n).qv with
  | [] => s
  | q :: _ => if interlocked false q (getCore s n).qc then s else engHead s n .vxe

/-- ENGINE_ISSUE (R45, R53, R377). -/
def execEngineIssue (core : Nat) (eng : EUnit) (flt : EngFault) (s : State) : Result :=
  .next (if core < 128 then engineIssue core eng flt s
    else if running s core ∧ (eng = .vxe ∨ eng = .cdm) ∧ ¬ (queueOf (getCore s core) eng).isEmpty then
      match flt with
      | .none => if eng = .vxe then renderVHead s core else renderHead s core
      | .fault src fatal => engFaultOp s core eng src fatal
    else s)

/-- BUNDLE_DISPATCH (R41, R42, R66). A render core dispatches nothing after its END. -/
def execBundleDispatch (core : Nat) (flt : DispFault) (s : State) : Result :=
  .next (let t := bundleDispatch core flt s
    if 128 ≤ core ∧ (getCore t core).qc.any (fun q => (decodeSlot q.slot).op == 0xEF) then
      updCore t core (fun c => { c with hold := .halt })
    else t)

/-- A render instruction on the registers as they stand; one that has to wait goes to the head of the queue. -/
def runRender (s : State) (n : Nat) (x : Insn) : State :=
  match renderInsn s n x with
  | some t => t
  | none => updCore s n (fun c => { c with
      qc := ⟨encodeSlot x, ⟨0, false⟩, ⟨0, false⟩, ⟨0, false⟩, c.bundles⟩ :: c.qc })

def execVfetch (core : Nat) (s : State) : Result := .next (runRender s core ⟨0xE0, 0, 0, 0, 0, 0, 0⟩)
def execVemit (core a : Nat) (s : State) : Result := .next (runRender s core ⟨0xE1, 0, a, 0, 0, 0, 0⟩)
def execRfetch (core : Nat) (s : State) : Result := .next (runRender s core ⟨0xE2, 0, 0, 0, 0, 0, 0⟩)
def execTex (core d a b c : Nat) (imm : BitVec 32) (s : State) : Result :=
  .next (runRender s core ⟨0xE3, d, a, b, c, 0, imm⟩)
def execPxld (core d : Nat) (imm : BitVec 32) (s : State) : Result := .next (runRender s core ⟨0xE4, d, 0, 0, 0, 0, imm⟩)
def execPxst (core a : Nat) (imm : BitVec 32) (s : State) : Result := .next (runRender s core ⟨0xE5, 0, a, 0, 0, 0, imm⟩)
def execPxdone (core : Nat) (s : State) : Result := .next (runRender s core ⟨0xE6, 0, 0, 0, 0, 0, 0⟩)
def execRay (core d a : Nat) (s : State) : Result := .next (runRender s core ⟨0xE7, d, a, 0, 0, 0, 0⟩)
def execEnd (core : Nat) (s : State) : Result := .next (runRender s core ⟨0xEF, 0, 0, 0, 0, 0, 0⟩)

/-! ### Heads (R390-R392) and the display plan (R374) -/

def headCfg (s : State) (h : Nat) : Option HeadCfg :=
  match s.cornice.plan with
  | none => none
  | some d => (d.heads[h]?).bind (fun c => if c.enable then some c else none)

/-- The die whose stacks hold an address. -/
def dieOfAddr (a : Nat) : Option Nat := match placeOf a with | .dram d _ => some d | _ => none

/-- VBLANK_START (R391): the frame has been sent; the ready flip takes effect and its FLIP_DONE is written. -/
def execVblankStart (head : Nat) (s : State) : Result :=
  .next (match headCfg s head with
    | none => s
    | some _ =>
      let s := incWrap s (Reg.HEAD_FRAMES head) 32 1
      match (getHead s head).next with
      | none => s
      | some (base, tag) =>
        let back := match dieOfAddr base with
          | some d => (getHead s head).altReq && (getDie s d).linksClosed
          | none => false
        let s := setHead s head { getHead s head with next := none, altReq := back }
        let s := wrb (wrn s (Reg.HEAD_SCAN head) base) (Reg.HEAD_STATUS head) 3 false
        flipDone s head tag false)

/-- HEAD_LINE_START (R392): a line not fully read, or on a die that cannot be read, is sent black and counted; a
poisoned one is dropped with package UC 0x90. -/
def execHeadLineStart (head line : Nat) (fetched : Bool) (s : State) : Result :=
  .next (match headCfg s head, s.cornice.plan with
    | some c, some d =>
      let s := setHead s head { getHead s head with line := line }
      let a := rdn s (Reg.HEAD_SCAN head) + line * c.pitch
      let closed := match dieOfAddr a with
        | some k => (getDie s k).linksClosed
        | none => false
      if ¬ fetched ∨ closed = true then
        let s := incSat s (Reg.HEAD_UNDERRUN head) 32 1
        emit (hwSetBit s Reg.CORNICE_STATUS Reg.CORNICE_EVCNT 4) (.line head line true)
      else if inWin d false a (c.w * 4) then
        let (bs, s) := busReadBytes s .cornice (corLabel d false) a (c.w * 4)
        if bs.any (·.2) then
          emit (detect (incSat s (Reg.HEAD_UNDERRUN head) 32 1) .package 0 .uc 0x90 a) (.line head line true)
        else emit s (.line head line false)
      else
        let s := incSat (detect s .package 0 .uc 0x96 a) (Reg.HEAD_UNDERRUN head) 32 1
        emit (hwSetBit s Reg.CORNICE_STATUS Reg.CORNICE_EVCNT 4) (.line head line true)
    | _, _ => s)

/-- HEAD_FRAME_START (R392): a head ordered to its ALT_BASE switches and sets ON_ALT. -/
def execHeadFrameStart (head : Nat) (s : State) : Result :=
  .next (match headCfg s head with
    | none => s
    | some c =>
      if (getHead s head).altReq then
        let s := setHead s head { getHead s head with altReq := false }
        wrb (wrn s (Reg.HEAD_SCAN head) c.alt) (Reg.HEAD_STATUS head) 3 true
      else s)

/-- Serac orders a die restart: heads that scan that die's stacks go to their ALT_BASE (R392). -/
def headsAlt (s : State) (die : Nat) : State :=
  forUpTo 4 (fun h t => if (headCfg t h).isSome ∧ dieOfAddr (rdn t (Reg.HEAD_SCAN h)) = some die then
    setHead t h { getHead t h with altReq := true } else t) s

/-- DP_HOT_PLUG (R390): the head trains or drops its link. -/
def execDpHotPlug (head : Nat) (up : Bool) (lanes : Nat) (s : State) : Result :=
  .next (wrf (wrb s (Reg.HEAD_STATUS head) 0 up) (Reg.HEAD_STATUS head) 2 1
    (if up then (if lanes = 4 then 2 else if lanes = 2 then 1 else 0) else 0))

/-- Does the plan keep Table 14.1? -/
def displayOk (s : State) (d : DispPlan) : Bool :=
  let ring (r : Nat × Nat) : Bool := decide (4 ≤ r.2) && decide (r.2 ≤ 12)
  decide (d.owner ≤ 16) && decide (d.mapOwner ≤ 16) && decide (d.wins.length ≤ 8)
  && d.wins.all (fun w => decide (w.base % 4096 = 0) && decide (w.size % 4096 = 0) && decide (watermark s ≤ w.base))
  && ring d.passRing && ring d.mapRing && ring d.eventRing && ring d.mapEventRing
  && decide (1 ≤ d.drift) && decide (d.drift ≤ 7) && decide (d.heads.length ≤ 4)
  && d.heads.all (fun h => !h.enable || decide (dieOfAddr h.base ≠ dieOfAddr h.alt))

/-- Processor 3 applies the display plan, or none of it (DISPLAY_PLAN_APPLY, R374): Cornice and the heads begin
anew. -/
def displayApply (s : State) : State :=
  let clear (s : State) : State :=
    let s := corBusy (setCor s { s.cornice with pass := none, map := none, rcs := [], heads := [], waiting := [] })
    forUpTo 8 (fun k t => wrb t (Reg.CORE_STATUS (128 + k)) 0 false) (evtWait s)
  match s.power.nvm.display with
  | none => wrb (clear (setCor s { s.cornice with plan := none })) Reg.CORNICE_CTL 0 false
  | some d =>
    if displayOk s d then
      let s := wrb (clear (setCor s { s.cornice with plan := some d })) Reg.CORNICE_CTL 0 true
      forUpTo 4 (fun h t => match d.heads[h]? with
        | some c => if c.enable then wrb (wrn t (Reg.HEAD_SCAN h) c.base) (Reg.HEAD_STATUS h) 3 false else t
        | none => t) s
    else
      let s := wrb (clear (setCor s { s.cornice with plan := none })) Reg.CORNICE_CTL 0 false
      hwSetBit s Reg.CORNICE_STATUS Reg.CORNICE_EVCNT 1

end Sys2Proof.Machine
end

