-- ==== Sys2Proof/Machine/Baseth.lean ====
section
/-! DEFINITION. Baseth (10): link retry (R284), lanes and ports that leave and return (R285, R286, R297), training and
the fabric manager (R287-R290), routing (R292-R295), epochs (R296) and conduits (R298-R304). What the other end of a
link does, and the rest of the fabric, are the operands of the commands. -/

namespace Sys2Proof.Machine

def setBas (s : State) (x : BasethSt) : State := { s with baseth := x }
def getPort (s : State) (p : Nat) : PortSt := Tab.get {} s.baseth.ports p
def setPort (s : State) (p : Nat) (x : PortSt) : State :=
  setBas s { s.baseth with ports := Tab.set s.baseth.ports p x }
def updPort (s : State) (p : Nat) (f : PortSt → PortSt) : State := setPort s p (f (getPort s p))

/-- PORT_STATUS fields: UP, LANES, RETIRED, RETURN_PENDING. -/
def portUp (s : State) (p : Nat) : Bool := rdb s (Reg.PORT_STATUS p) 0
def portLanes (s : State) (p : Nat) : Nat := rdf s (Reg.PORT_STATUS p) 5 2
def laneCount (mask : Nat) : Nat := ((List.range 4).filter (fun i => Nat.testBit mask i)).length
def fmPlan (s : State) : FabricPlan := s.baseth.plan

/-- A message on the fabric manager's channel. -/
def fabricMsg (s : State) (what : String) (port arg : Nat) : State := emit s (.fabric what port arg)

/-! ### The grid (R282, R289, R292) -/

def ownId (s : State) : Nat := rdf s Reg.BASETH_COORD 9 0

/-- The coordinate of a device ID in dimension 0 (X), 1 (Y) or 2 (Z). -/
def coordOf (id d : Nat) : Nat :=
  match d with
  | 0 => id % 16
  | 1 => id / 16 % 8
  | _ => id / 128

def dimSize (f : FabricPlan) (d : Nat) : Nat :=
  match d with
  | 0 => f.dx
  | 1 => f.dy
  | _ => f.dz

def dimWrap (f : FabricPlan) (d : Nat) : Bool :=
  match d with
  | 0 => f.wx
  | 1 => f.wy
  | _ => f.wz

/-- The ports of a direction, the first link first. -/
def dirPorts (d : Nat) (plus : Bool) : List Nat :=
  match d with
  | 0 => if plus then [0, 6] else [1, 7]
  | 1 => if plus then [2] else [3]
  | _ => if plus then [4] else [5]

/-- The dimension of a port. -/
def portDim (p : Nat) : Nat := if p < 2 ∨ 6 ≤ p then 0 else if p < 4 then 1 else 2

/-- The way from coordinate `c` to `t`: the shorter one around a wrapped dimension, + when equal, else direct. -/
def wayPlus (f : FabricPlan) (d c t : Nat) : Bool :=
  let n := dimSize f d
  if dimWrap f d then decide ((t + n - c) % n ≤ (c + n - t) % n) else decide (c < t)

/-- The first dimension in which two devices differ. -/
def firstDim (own dst : Nat) : Option Nat := (List.range 3).find? (fun d => coordOf own d != coordOf dst d)

/-- The lowest other dimension of size 2 or more (R294). -/
def lowestOther (f : FabricPlan) (a : Nat) : Option Nat :=
  (List.range 3).find? (fun d => d != a && decide (2 ≤ dimSize f d))

/-- Does the hop cross the wrap link? -/
def crosses (f : FabricPlan) (d c : Nat) (plus : Bool) : Bool :=
  dimWrap f d && (if plus then decide (c + 1 = dimSize f d) else c == 0)

/-- May a flit take the port's link: up, and not down in the map of the flit's parity (R296)? -/
def linkUsable (s : State) (f : Flit) (p : Nat) : Bool :=
  portUp s p && (Tab.get [] s.baseth.maps (b2n f.epoch)).all (fun l => !(l.dev == ownId s && l.port == p) || l.up)

/-- The link of its direction a flow is assigned to (R282). -/
def flowLink (f : Flit) (d : Nat) (plus : Bool) : Nat :=
  let ps := dirPorts d plus
  ps.getD (if ps.length = 2 then (f.src + f.conduit) % 2 else 0) 0

/-! ### Sending (R283, R284, R293) -/

/-- A flit takes the next LSEQ and leaves; a copy stays for a resend. -/
def transmit (s : State) (p : Nat) (f : Flit) : State :=
  let x := getPort s p
  let g := { f with lseq := x.txSeq, ackSeq := x.rxLast, ackValid := true, nak := false, crcOk := true }
  emit (setPort s p { x with txSeq := (x.txSeq + 1) % 4096, replay := x.replay ++ [g] }) (.flit p g)

/-- The order in which waiting flits are served: VC 4, then control, then data (R293). -/
def vcRank (v : Nat) : Nat := if v = 4 then 0 else if v = 2 ∨ v = 3 then 1 else 2

/-- The first waiting flit of the best rank. -/
def nextQueued (q : List Flit) : Option Flit :=
  (q.find? (fun f => vcRank f.vc == 0)) <|> (q.find? (fun f => vcRank f.vc == 1)) <|> q.head?

/-- Waiting flits leave while the port runs and its replay buffer of 512 has room. -/
def drainPort (p : Nat) : Nat → State → State
  | 0, s => s
  | n + 1, s =>
    let x := getPort s p
    if portUp s p ∧ ¬ x.training ∧ x.replay.length < 512 then
      match nextQueued x.vcq with
      | some f => drainPort p n (transmit (setPort s p { x with vcq := x.vcq.erase f }) p f)
      | none => s
    else s

/-- A flit handed to a port. -/
def sendOn (s : State) (p : Nat) (f : Flit) : State :=
  let s := updPort s p (fun x => { x with vcq := x.vcq ++ [f] })
  drainPort p (getPort s p).vcq.length s

/-- Unacknowledged flits are sent again, in order (R284). -/
def resend (s : State) (p : Nat) : State :=
  let s := (getPort s p).replay.foldl (fun t f => emit t (.flit p f)) s
  incSat s (Reg.PORT_RETRIES p) 32 (getPort s p).replay.length

/-! ### Conduit faults (R302) -/

def getCnd (s : State) (n : Nat) : CndSt := Tab.get {} s.baseth.cnd n
def setCnd (s : State) (n : Nat) (x : CndSt) : State := setBas s { s.baseth with cnd := Tab.set s.baseth.cnd n x }

/-- Jobs of images whose regions hold the conduit's region. -/
def conduitJobs (s : State) (n : Nat) : List Job :=
  let a := if rdb s (Reg.CND_CTL n) 1 then rdf s (Reg.CND_LOCAL n) 47 0 else rdf s (Reg.CND_REMOTE n) 47 0
  s.rime.jobs.filter (fun j => match jobImg s j with
    | some i => i.regions.any (fun r => decide (r.base ≤ a) && decide (a < r.base + r.size))
    | none => false)

/-- A conduit stops: FAULT and CODE, and every job that uses it fails with the SOURCE. -/
def conduitStop (s : State) (n code : Nat) : State :=
  let s := wrf (wrb s (Reg.CND_STATUS n) 0 false) (Reg.CND_STATUS n) 9 2 code
  let s := hwSetBit s (Reg.CND_STATUS n) (Reg.CND_EVCNT n) 1
  (conduitJobs s n).foldl (fun t j => failJob t j code) s

/-- A conduit faults, and its peer with the same code. -/
def conduitFault (s : State) (n code : Nat) : State :=
  if rdb s (Reg.CND_STATUS n) 1 then s
  else
    let s := conduitStop (detect s .package 0 .uc code n) n code
    fabricMsg s "CONDUIT_FAULT" (rdf s (Reg.CND_PEER n) 15 0) code

/-- A flit cannot reach its destination (R294, R302): UC 0xA3 toward its conduit. -/
def unreachable (s : State) (f : Flit) : State :=
  let s := hwSetBit s Reg.BASETH_STATUS Reg.BASETH_EVCNT 6
  if f.src = ownId s then conduitFault s f.conduit 0xA3
  else fabricMsg (detect s .package 0 .uc 0xA3 f.conduit) "UNREACHABLE" f.src f.conduit

/-! ### Routing (R292-R295) -/

/-- The flit's virtual channel on a hop in dimension `d` (R293): it enters a dimension before the dateline. -/
def hopVc (s : State) (f : Flit) (from_ : Option Nat) (d : Nat) (plus : Bool) : Nat :=
  let base := if f.vc = 2 ∨ f.vc = 3 then 2 else 0
  let same := match from_ with
    | some p => portDim p == d && decide (f.vc ≠ 4)
    | none => false
  if crosses (fmPlan s) d (coordOf (ownId s) d) plus then base + 1
  else if same then f.vc else base

/-- A hop over the flow's own link. -/
def plainHop (s : State) (f : Flit) (from_ : Option Nat) (d : Nat) (plus : Bool) : State :=
  sendOn s (flowLink f d plus) { f with vc := hopVc s f from_ d plus, detour := false }

/-- The first usable link of a direction. -/
def anyLink (s : State) (f : Flit) (d : Nat) (plus : Bool) : Option Nat := (dirPorts d plus).find? (linkUsable s f)

/-- A detour on VC 4 (R294): the other link of the direction, a step into the lowest other dimension, or the other way
around; else the flit is unreachable. -/
def detourHop (s : State) (f : Flit) (d : Nat) (plus : Bool) : State :=
  let g := { f with vc := 4, detour := true }
  match anyLink s f d plus with
  | some p => sendOn s p g
  | none =>
    match (lowestOther (fmPlan s) d).bind (fun b => (anyLink s f b true) <|> (anyLink s f b false)) with
    | some p => sendOn s p g
    | none =>
      if dimWrap (fmPlan s) d then
        match anyLink s f d (!plus) with
        | some p => sendOn s p g
        | none => unreachable s f
      else unreachable s f

/-- A flit that is not on a detour takes its next hop. -/
def routePlain (s : State) (f : Flit) (from_ : Option Nat) : State :=
  match firstDim (ownId s) f.dst with
  | none => s
  | some d =>
    let plus := wayPlus (fmPlan s) d (coordOf (ownId s) d) (coordOf f.dst d)
    if linkUsable s f (flowLink f d plus) then plainHop s f from_ d plus else detourHop s f d plus

/-- A hop of a detour in progress: a second detour is not made. -/
def detourStep (s : State) (f : Flit) (d : Nat) (plus back : Bool) : State :=
  match anyLink s f d plus with
  | some p => sendOn s p (if back then { f with vc := 0, detour := false } else f)
  | none => unreachable s f

/-- A flit on a detour that arrived at port `p` (log entry 29): over the other link it is back on its path; after the
step aside it makes its hop; after that hop it steps back; and in a grid of one dimension it goes on around. -/
def routeDetour (s : State) (f : Flit) (p : Nat) : State :=
  let d0 := portDim p
  let own := ownId s
  let aside := (List.range 3).find? (fun a => a != d0 && coordOf own a != coordOf f.dst a &&
    lowestOther (fmPlan s) a == some d0)
  if d0 = 0 ∧ (if 6 ≤ p then 1 else 0) ≠ (f.src + f.conduit) % 2 then routePlain s { f with vc := 0, detour := false } none
  else match aside with
    | some a => detourStep s f a (wayPlus (fmPlan s) a (coordOf own a) (coordOf f.dst a)) false
    | none => match lowestOther (fmPlan s) d0 with
      | some b => detourStep s f b false true
      | none => if coordOf own d0 = coordOf f.dst d0 then routePlain s { f with vc := 0, detour := false } none
        else detourStep s f d0 (p % 2 == 1) false

/-- A flit held by this device goes on. -/
def routeFlit (s : State) (f : Flit) (from_ : Option Nat) : State :=
  if f.dst = ownId s then emit s (.notice "conduit" "flit" f.conduit)
  else match from_ with
    | some p => if f.detour then routeDetour s f p else routePlain s f (some p)
    | none => routePlain s { f with detour := false } none

/-! ### Ports down, lanes retired (R285, R286) -/

/-- A port goes down (PORT_DOWN): CE 0xA2, and its flits are routed again in order. -/
def portDown (s : State) (p : Nat) : State :=
  let x := getPort s p
  let s := hwSetBit (wrf s (Reg.PORT_STATUS p) 5 0 0) (Reg.PORT_STATUS p) (Reg.PORT_EVCNT p) 10
  let s := wr (wr s (Reg.PORT_PEER p) 0) (Reg.PORT_PEER_PORT p) 0
  let s := setPort s p { peer := x.peer, down := true, ret := x.ret }
  let s := detect s .package 0 .ce 0xA2 p
  (x.replay ++ x.vcq).foldl (fun t f => if f.kind = 0 ∨ f.kind = 5 then t else routeFlit t f none) s

/-- The lane to retire: the one whose FEC flagged, else the one with the most corrected symbols in the last 1 ms, which
the block's inputs do not give (an open value); a tie goes to the higher lane. -/
def lanePick (s : State) (p : Nat) (flagged : List Nat) : Nat × State :=
  let on := (List.range 4).filter (fun l => Nat.testBit (portLanes s p) l)
  match flagged.filter on.contains with
  | [l] => (l, s)
  | _ =>
    let cnt (l : Nat) : Nat := (Config.freeWord (s.free + l)).toNat
    (on.foldl (fun b l => if cnt b ≤ cnt l then l else b) (on.getD 0 0), { s with free := s.free + 4 })

/-- A lane is retired (LANE_RETIRE): CE 0xA1 and a retrain on the others, or the port goes down. -/
def laneRetire (s : State) (p l : Nat) : State :=
  let s := wrb (wrb s (Reg.PORT_STATUS p) (2 + l) false) (Reg.PORT_STATUS p) (6 + l) true
  let s := hwSetBit s (Reg.PORT_STATUS p) (Reg.PORT_EVCNT p) 11
  let s := iceAdd (detect s .package 0 .ce 0xA1 p) 0x208 32 1
  if laneCount (portLanes s p) < 2 ∨ rdb s (Reg.PORT_STATUS p) 1 then portDown s p
  else iceAdd (updPort s p (fun x => { x with training := true })) (0x240 + 4 * p) 32 1

/-- The peer's acknowledgement and its request to resend (FLIT_RESEND). -/
def takeAck (s : State) (p : Nat) (f : Flit) : State :=
  let s := if f.ackValid then
      updPort s p (fun x => { x with replay := x.replay.filter (fun g => decide (2048 ≤ (f.ackSeq + 4096 - g.lseq) % 4096)) })
    else s
  if f.nak then resend s p else drainPort p (getPort s p).vcq.length s

/-- NAK: a resend is asked for from the flit after the last accepted. -/
def sendNak (s : State) (p : Nat) : State :=
  let x := getPort s p
  let f : Flit := ⟨x.txSeq, x.rxLast, true, true, 2, 5, 0, 0, 0, false, false, false, 0, [], 0, true⟩
  emit (setPort s p { x with nakSent := true }) (.flit p f)

/-- FLIT_RECEIVE (R284). -/
def execFlitReceive (port : Nat) (f : Flit) (fecLanes : List Nat) (s : State) : Result :=
  .next (
    let x := getPort s port
    let want := (x.rxLast + 1) % 4096
    if ¬ portUp s port ∨ x.training then s
    else if f.crcOk ∧ f.lseq = want then
      let s := setPort s port { x with rxLast := want, failedOnce := none, nakSent := false }
      let s := if x.nakSent then detect s .package 0 .ce 0xA0 port else s
      let s := takeAck s port f
      if f.kind = 0 ∨ f.kind = 5 then s else routeFlit s f (some port)
    else if ¬ f.crcOk ∧ f.lseq = want ∧ x.failedOnce = some want then
      let s := setPort s port { x with failedOnce := none }
      let (l, s) := lanePick s port fecLanes
      laneRetire s port l
    else
      let s := if ¬ f.crcOk ∧ f.lseq = want then setPort s port { x with failedOnce := some want } else s
      if x.nakSent ∧ ¬ (¬ f.crcOk ∧ f.lseq = want) then s else sendNak s port)

/-- PORT_RETRAIN_DONE (R285, R286): the port resumes with what waits, or goes down. -/
def execPortRetrainDone (port : Nat) (ok : Bool) (s : State) : Result :=
  .next (if (getPort s port).training then
      if ok then
        let s := updPort s port (fun x => { x with training := false })
        drainPort port (getPort s port).vcq.length (resend s port)
      else portDown s port
    else s)

/-- PORT_PEER_TIMEOUT (R286). -/
def execPortPeerTimeout (port : Nat) (s : State) : Result := .next (if portUp s port then portDown s port else s)

/-! ### Training and the fabric manager (R287-R290) -/

/-- The hash of the plan this device holds. -/
def ownHash (s : State) : Nat :=
  let f := fmPlan s
  Config.planHash [f.dx, f.dy, f.dz, b2n f.wx, b2n f.wy, b2n f.wz, b2n f.eligible,
    (match f.anchor with | some a => a.toNat + 1 | none => 0), f.keySlot] % 2 ^ 32

/-- PORT_TRAIN (R287): a neighbour with another plan is not admitted. -/
def execPortTrain (port : Nat) (peer : Word) (peerPort gen planHash : Nat) (s : State) : Result :=
  .next (
    let g := rdf s (Reg.PORT_CTL port) 2 1
    if rdb s Reg.BASETH_CTL 0 ∧ rdb s (Reg.PORT_CTL port) 0 ∧ ¬ portUp s port ∧ ¬ (getPort s port).down ∧
        (g = 0 ∨ g = gen) then
      if planHash % 2 ^ 32 = ownHash s then
        let s := setPort s port { peer := (peer, peerPort) }
        let s := wr s (Reg.PORT_PEER port) peer
        let s := wrn s (Reg.PORT_PEER_PORT port) (peerPort % 8 + 8)
        wrf (wrb (wrf (wrb s (Reg.PORT_STATUS port) 1 (gen == 1)) (Reg.PORT_STATUS port) 5 2 15)
          (Reg.PORT_STATUS port) 0 true) (Reg.PORT_STATUS port) 9 6 0
      else hwSetBit s Reg.BASETH_STATUS Reg.BASETH_EVCNT 3
    else s)

/-- The eligible devices by identity, the lowest first. -/
def insertUid (w : Word) : List Word → List Word
  | [] => [w]
  | x :: xs => if w.toNat < x.toNat then w :: x :: xs else if w = x then x :: xs else x :: insertUid w xs

def eligibleUids (s : State) (peers : List FmPeer) : List Word :=
  let own : List Word := if rdb s Reg.BASETH_CTL 1 then [BitVec.ofNat 64 (deviceUid s)] else []
  (own ++ peers.filterMap (fun p => if p.eligible ∧ ¬ p.tabden then some p.uid else none)).foldl
    (fun l w => insertUid w l) []

/-- The ID of an elected device, where this device can know it: its own, or 0 for the manager of a plan without
anchor and for the anchor; else an open value. -/
def idOfUid (s : State) (uid : Word) (isFm : Bool) : Nat × State :=
  if uid = BitVec.ofNat 64 (deviceUid s) then (ownId s, s)
  else if (fmPlan s).anchor = some uid ∨ (isFm ∧ (fmPlan s).anchor = none) then (0, s)
  else (fld (freshVal s) 9 0, drawn s)

/-- FM_ELECTION (R288, R289): the manager and the backup, and this device's coordinate. -/
def execFmElection (peers : List FmPeer) (x y z : Nat) (wired : Bool) (s : State) : Result :=
  .next (
    let f := fmPlan s
    if ¬ rdb s Reg.BASETH_CTL 0 ∨ ¬ live s 2 then s
    else
      let els := eligibleUids s peers
      let me := BitVec.ofNat 64 (deviceUid s)
      let s := setBas s { s.baseth with
        fmUid := els.getD 0 0, backupUid := els.getD 1 0, fmHeard := nowN s, noFm := els.isEmpty }
      if els = [] then s
      else if wired ∧ x < f.dx ∧ y < f.dy ∧ z < f.dz then
        let s := wrn s Reg.BASETH_COORD (x + 16 * y + 128 * z + x * 2 ^ 10 + y * 2 ^ 14 + z * 2 ^ 17)
        let s := wrb s Reg.BASETH_STATUS 0 true
        let s := wrb (wrb s Reg.BASETH_STATUS 1 (els[0]? == some me)) Reg.BASETH_STATUS 2 (els[1]? == some me)
        let (a, s) := idOfUid s (els.getD 0 0) true
        let (b, s) := if els.length < 2 then (0, s) else idOfUid s (els.getD 1 0) false
        wrn s Reg.BASETH_FM (a + b * 2 ^ 10)
      else hwSetBit (wrb s Reg.BASETH_STATUS 0 false) Reg.BASETH_STATUS Reg.BASETH_EVCNT 3)

/-- FM_TAKEOVER (R290): nothing heard for 50 ms, the backup takes over; coordinates and IDs stand. -/
def execFmTakeover (s : State) : Result :=
  .next (if rdb s Reg.BASETH_STATUS 2 ∧ s.baseth.fmHeard + 50000000 ≤ nowN s ∧ live s 2 then
      let s := setBas s { s.baseth with fmUid := s.baseth.backupUid, fmHeard := nowN s }
      let s := wrb (wrb s Reg.BASETH_STATUS 1 true) Reg.BASETH_STATUS 2 false
      wrf s Reg.BASETH_FM 9 0 (ownId s)
    else s)

/-- The fabric takes epochs, returns and boundaries over several devices (R290). -/
def fabricManaged (s : State) : Bool := rdb s Reg.BASETH_STATUS 0 && !s.baseth.noFm

/-! ### Epochs (R296) -/

/-- LINK_MAP_DISTRIBUTE (R296): E at least 2 ms ahead and 10 ms after the last epoch. -/
def execLinkMapDistribute (links : List LinkRec) (at_ : Word) (s : State) : Result :=
  .next (if fabricManaged s ∧ nowN s + 2000000 ≤ at_.toNat ∧ (match s.baseth.lastEpoch with
      | some e => decide (e.toNat + 10000000 ≤ at_.toNat)
      | none => true) = true then
      let s := setBas s { s.baseth with next := some (links, at_), fmHeard := nowN s }
      if rdb s Reg.BASETH_STATUS 1 then fabricMsg s "LINK_MAP" 0 at_.toNat else s
    else s)

/-- FABRIC_EPOCH (R296): the new map becomes current; conduits with a slot not acknowledged hold. -/
def execFabricEpoch (s : State) : Result :=
  .next (match s.baseth.next with
    | none => s
    | some (m, e) =>
      if e.toNat ≤ nowN s then
        let s := incWrap s Reg.BASETH_EPOCH 32 1
        let s := setBas s { s.baseth with
          next := none, lastEpoch := some e,
          maps := Tab.set s.baseth.maps (rdn s Reg.BASETH_EPOCH % 2) m,
          cnd := s.baseth.cnd.map (fun c => (c.1, { c.2 with hold := decide (c.2.unacked ≠ 0) })) }
        hwSetBit s Reg.BASETH_STATUS Reg.BASETH_EVCNT 4
      else s)

/-- STALE_FLIT_DISCARD (R296): 1 ms after E, held flits of the previous parity are unreachable. -/
def execStaleFlitDiscard (s : State) : Result :=
  .next (match s.baseth.lastEpoch with
    | none => s
    | some e =>
      if e.toNat + 1000000 ≤ nowN s then
        let now_ := rdn s Reg.BASETH_EPOCH % 2 == 1
        forUpTo 8 (fun p t =>
          let old := (getPort t p).vcq.filter (fun f => f.epoch != now_)
          let t := updPort t p (fun x => { x with vcq := x.vcq.filter (fun f => f.epoch == now_) })
          old.foldl unreachable t) s
      else s)

/-! ### Returns (R297) -/

/-- A return is over. -/
def returnEnd (s : State) (p : Nat) : State :=
  wrb (updPort s p (fun x => { x with ret := none })) (Reg.PORT_STATUS p) 12 false

/-- RETURN_PREPARE: a retired lane, or a link that is down, is trained beside the live lanes. -/
def execReturnPrepare (port : Nat) (lanes : Nat) (whole : Bool) (deadline : Word) (s : State) : Result :=
  .next (
    let mask := if whole then 15 else lanes &&& rdf s (Reg.PORT_STATUS port) 9 6
    if fabricManaged s ∧ (getPort s port).ret = none ∧ portUp s port ≠ whole ∧ mask ≠ 0 then
      wrb (updPort s port (fun x => { x with ret := some { lanes := mask, whole := whole, deadline := deadline } }))
        (Reg.PORT_STATUS port) 12 true
    else s)

/-- RETURN_ANSWER: READY without a bit error, else REFUSE; both READY commit at E, else abort. -/
def execReturnAnswer (port : Nat) (ownErrors : Nat) (peerReady : Bool) (epochAt : Word) (s : State) : Result :=
  .next (match (getPort s port).ret with
    | none => s
    | some r =>
      if r.committed = none ∧ nowN s ≤ r.deadline.toNat then
        let s := fabricMsg s (if ownErrors = 0 then "READY" else "REFUSE") port 0
        let both := decide (ownErrors = 0) && peerReady && decide (epochAt.toNat ≤ r.deadline.toNat)
        let s := if rdb s Reg.BASETH_STATUS 1 then fabricMsg s (if both then "COMMIT" else "ABORT") port epochAt.toNat
          else s
        if both then updPort s port (fun x => { x with ret := some { r with committed := some epochAt } })
        else returnEnd s port
      else s)

/-- The lanes or the link join. -/
def returnJoin (s : State) (p : Nat) (r : ReturnSt) : State :=
  let x := getPort s p
  let st := Reg.PORT_STATUS p
  let s := wrf s st 5 2 ((if r.whole then 0 else rdf s st 5 2) ||| r.lanes)
  let s := wrf s st 9 6 ((if r.whole then 15 else rdf s st 9 6) &&& (15 - r.lanes))
  let s := if r.whole then
      wrn (wr (setPort (wrb s st 0 true) p { peer := x.peer }) (Reg.PORT_PEER p) x.peer.1) (Reg.PORT_PEER_PORT p)
        (x.peer.2 % 8 + 8)
    else s
  let s := returnEnd s p
  drainPort p (getPort s p).vcq.length s

/-- RETURN_COMMIT: at E the bond marker leaves on the returning lane; the peer's marker joins it. -/
def execReturnCommit (port : Nat) (peerMarker : Bool) (s : State) : Result :=
  .next (match (getPort s port).ret with
    | none => s
    | some r =>
      match r.committed with
      | none => s
      | some e =>
        if e.toNat ≤ nowN s ∧ nowN s ≤ e.toNat + 2000 then
          let s := if r.marked then s else fabricMsg s "BOND_MARKER" port r.lanes
          if peerMarker then returnJoin s port r
          else updPort s port (fun x => { x with ret := some { r with marked := true } })
        else s)

/-- RETURN_ABORT: the lane or link stays out. -/
def execReturnAbort (port : Nat) (s : State) : Result :=
  .next (if (getPort s port).ret.isSome then returnEnd s port else s)

/-- BOND_MARKER_TIMEOUT: at E + 2 µs a missing marker keeps the lane or link out. -/
def execBondMarkerTimeout (port : Nat) (s : State) : Result :=
  .next (match (getPort s port).ret.bind (·.committed) with
    | none => s
    | some e =>
      if e.toNat + 2000 ≤ nowN s then
        fabricMsg (hwSetBit (returnEnd s port) Reg.BASETH_STATUS Reg.BASETH_EVCNT 5) "BOND_FAIL" port 0
      else s)

/-- RETURN_DEADLINE: neither COMMIT nor ABORT has come. -/
def execReturnDeadline (port : Nat) (s : State) : Result :=
  .next (match (getPort s port).ret with
    | none => s
    | some r => if r.committed = none ∧ r.deadline.toNat ≤ nowN s then returnEnd s port else s)

/-! ### Conduits (R298-R304) -/

/-- A conduit is enabled: a sender starts with CREDITS equal to SLOTS; its counter goes on. -/
def conduitEnable (s : State) (n : Nat) : State :=
  let st := Reg.CND_STATUS n
  let s := wrf (wrb s st 0 true) st 17 10 (if rdb s (Reg.CND_CTL n) 1 then rdf s (Reg.CND_SLOT n) 31 24 else 0)
  setCnd s n {}

/-- A conduit is disabled. -/
def conduitDisable (s : State) (n : Nat) : State := wrb s (Reg.CND_STATUS n) 0 false

/-- Enabled and not faulted. -/
def conduitOn (s : State) (n : Nat) : Bool :=
  rdb s (Reg.CND_CTL n) 0 && rdb s (Reg.CND_STATUS n) 0 && !rdb s (Reg.CND_STATUS n) 1

/-- The semaphores of a conduit: TRIG_SEM or SIG_SEM, and DONE_SEM or FREE_SEM. -/
def cndSem (s : State) (n : Nat) (second : Bool) : SemId :=
  .cluster (rdf s (Reg.CND_CTL n) 5 2) (if second then rdf s (Reg.CND_CTL n) 21 14 else rdf s (Reg.CND_CTL n) 13 6)

/-- The message header of R301 as a number. -/
def cndHeader (m : CndMsg) : Nat := m.offset + m.len * 2 ^ 24 + b2n m.last * 2 ^ 38 + m.slot * 2 ^ 39

/-- The additional authenticated data of a message. -/
def cndAad (dst src conduit : Nat) (m : CndMsg) : List Nat := [dst, src, conduit, m.counter.toNat, cndHeader m]

/-- The flits of a message (R283, R304): the header's 16 bytes, the ciphertext and the tag, 29 words a flit. -/
def cndFlits (s : State) (n dst : Nat) (m : CndMsg) : List Flit :=
  let ws := [BitVec.ofNat 64 (cndHeader m), 0] ++ m.cipher ++ [m.tag.truncate 64, (m.tag >>> 64).truncate 64]
  let k := ceilDiv ws.length 29
  (List.range k).map (fun i =>
    let mask := (List.range 29).foldl (fun a j => if m.poisoned.contains (29 * i + j - 2) ∧ 2 ≤ 29 * i + j then a + 2 ^ j else a) 0
    { lseq := 0, ackSeq := 0, ackValid := false, nak := false, vc := 0,
      kind := if k = 1 then 4 else if i = 0 then 1 else if i + 1 = k then 3 else 2,
      dst := dst, src := ownId s, conduit := n, epoch := rdn s Reg.BASETH_EPOCH % 2 == 1, detour := false,
      poison := decide (mask ≠ 0), counter := if i = 0 then m.counter else 0,
      payload := (ws.drop (29 * i)).take 29, pmask := BitVec.ofNat 29 mask, crcOk := true })

/-- A message of a slot read, sealed under the key slot's key, and sent. -/
def cndSend (s : State) (n slot off len : Nat) (last : Bool) (key : BitVec 256) : State :=
  if rdb s (Reg.CND_STATUS n) 1 then s
  else
    let peer := Reg.CND_PEER n
    let lab : Label := ⟨rdf s peer 18 16, rdf s peer 23 19⟩
    let a := rdf s (Reg.CND_LOCAL n) 47 0 + slot * rdf s (Reg.CND_SLOT n) 23 0 + off
    let (ws, s) := busReadWords (len / 8) s .conduit lab a
    let ctr := rdn s (Reg.CND_COUNT n) + 1
    let m : CndMsg := ⟨off, len, last, slot, BitVec.ofNat 64 ctr, [], 0,
      (List.range ws.length).filter (fun i => (ws.getD i ⟨0, false⟩).p)⟩
    let aad := cndAad (rdf s peer 9 0) (ownId s) n m
    let ct := Config.gcmSeal key ctr aad (ws.map (·.v))
    let m := { m with cipher := ct, tag := Config.gcmTag key ctr aad ct }
    let s := emit (wrn s (Reg.CND_COUNT n) ctr) (.conduitMsg n m)
    (cndFlits s n (rdf s peer 9 0) m).foldl (fun t f => routeFlit t f none) s

/-- CONDUIT_TRIGGER (R299): a wait of 1 on TRIG_SEM is granted with a credit, and the next slot leaves as messages of
at most 14,336 bytes. -/
def execConduitTrigger (n : Nat) (s : State) : Result :=
  .next (
    let sem := cndSem s n false
    let credits := rdf s (Reg.CND_STATUS n) 17 10
    match Tab.find s.baseth.keys (rdf s (Reg.CND_PEER n) 28 24) with
    | none => s
    | some k =>
      if conduitOn s n ∧ rdb s (Reg.CND_CTL n) 1 ∧ 1 ≤ semGet s sem ∧ 0 < credits ∧ ¬ (getCnd s n).hold then
        let s := wrf (semPut s sem (semGet s sem - 1)) (Reg.CND_STATUS n) 17 10 (credits - 1)
        let c := getCnd s n
        let size := rdf s (Reg.CND_SLOT n) 23 0
        let slots := rdf s (Reg.CND_SLOT n) 31 24
        let s := setCnd s n { c with slot := c.slot + 1, unacked := c.unacked + 1 }
        let parts := ceilDiv size 14336
        forUpTo parts (fun i t =>
          cndSend t n (c.slot % slots) (i * 14336) (if size - i * 14336 < 14336 then size - i * 14336 else 14336)
            (i + 1 == parts) k.key) s
      else s)

/-- The words of a message written at the receiver, a poisoned one with its poison (R300, R304). -/
def cndWrite (s : State) (n : Nat) (m : CndMsg) (ws : List Word) : State :=
  let lab : Label := ⟨rdf s (Reg.CND_PEER n) 18 16, rdf s (Reg.CND_PEER n) 23 19⟩
  let a := rdf s (Reg.CND_REMOTE n) 47 0 + m.slot * rdf s (Reg.CND_SLOT n) 23 0 + m.offset
  busWriteWords s .conduit lab a ((List.range (m.len / 8)).map (fun i => ⟨ws.getD i 0, m.poisoned.contains i⟩))

/-- CONDUIT_MESSAGE (R300, R302): the tag, the counter and the region are checked; LAST signals and acknowledges. -/
def execConduitMessage (n : Nat) (m : CndMsg) (s : State) : Result :=
  .next (if conduitOn s n ∧ ¬ rdb s (Reg.CND_CTL n) 1 then
      let peer := Reg.CND_PEER n
      let aad := cndAad (ownId s) (rdf s peer 9 0) (rdf s peer 15 10) m
      match Tab.find s.baseth.keys (rdf s peer 28 24) with
      | none => conduitFault s n 0xA4
      | some k =>
        if Config.gcmTag k.key m.counter.toNat aad m.cipher ≠ m.tag then conduitFault s n 0xA4
        else if m.counter.toNat ≠ rdn s (Reg.CND_COUNT n) + 1 then conduitFault s n 0xA5
        else if rdf s (Reg.CND_SLOT n) 31 24 ≤ m.slot ∨ rdf s (Reg.CND_SLOT n) 23 0 < m.offset + m.len then
          conduitFault s n 0xA5
        else
          let s := cndWrite s n m (Config.gcmOpen k.key m.counter.toNat aad m.cipher)
          let s := wr s (Reg.CND_COUNT n) m.counter
          if m.last then
            fabricMsg (semSignalQuiet s (cndSem s n false) 1) "CONDUIT_ACK" (rdf s peer 15 0) m.slot
          else s
    else s)

/-- CONDUIT_ACK (R299): the receiver has acknowledged a slot. -/
def execConduitAck (n : Nat) (s : State) : Result :=
  .next (
    let c := getCnd s n
    if conduitOn s n ∧ rdb s (Reg.CND_CTL n) 1 ∧ 0 < c.unacked then
      let s := setCnd s n { c with unacked := c.unacked - 1, hold := c.hold && decide (c.unacked ≠ 1) }
      semSignalQuiet s (cndSem s n true) 1
    else s)

/-- CONDUIT_FREE (R300): at the receiver a wait of 1 on FREE_SEM returns a credit; at the sender the credit arrives. -/
def execConduitFree (n : Nat) (s : State) : Result :=
  .next (if conduitOn s n then
      if rdb s (Reg.CND_CTL n) 1 then
        let c := rdf s (Reg.CND_STATUS n) 17 10
        if c < rdf s (Reg.CND_SLOT n) 31 24 then wrf s (Reg.CND_STATUS n) 17 10 (c + 1) else s
      else
        let sem := cndSem s n true
        if 1 ≤ semGet s sem then
          fabricMsg (semPut s sem (semGet s sem - 1)) "CONDUIT_CREDIT" (rdf s (Reg.CND_PEER n) 15 0) 0
        else s
    else s)

/-- A key slot written: conduits under it count from 1 again (R301, R303). -/
def keySet (s : State) (slot : Nat) (k : KeySlot) : State :=
  let s := setBas s { s.baseth with keys := Tab.set s.baseth.keys slot k }
  forUpTo 64 (fun n t => if rdf t (Reg.CND_PEER n) 28 24 = slot then wr t (Reg.CND_COUNT n) 0 else t) s

/-- Baseth at a device start: the plan's eligibility loaded, every lane to train afresh (R286, R287). -/
def fabricApply (s : State) : State :=
  let f := s.power.nvm.fabric
  let s := wrb (wrb s Reg.BASETH_CTL 0 f.enable) Reg.BASETH_CTL 1 (f.enable && f.eligible)
  let s := wrf (wrn (wrn s Reg.BASETH_COORD 0) Reg.BASETH_FM 0) Reg.BASETH_STATUS 2 0 0
  let s := forUpTo 8 (fun p t => wr (wr (wrf (wrf (wrb t (Reg.PORT_STATUS p) 12 false) (Reg.PORT_STATUS p) 9 6 0)
    (Reg.PORT_STATUS p) 5 0 0) (Reg.PORT_PEER p) 0) (Reg.PORT_PEER_PORT p) 0) s
  setBas s { keys := s.baseth.keys, plan := f }

end Sys2Proof.Machine
end

