-- ==== Sys2Proof/Machine/HostIf.lean ====
section
/-! DEFINITION. The host interface (11): apertures (R310, R311, R313), the management mailbox (R315), instance states
and their mailbox commands (R314, R316, R317), Function Level Reset (R318), the dirty log (R320, R321), and the
mailbox's log, link and conduit commands. -/

namespace Sys2Proof.Machine

/-! ### The mailbox (R315) -/

/-- The mailbox answers BUSY: processor 3 does not serve, or the device does not accept jobs (R246, R319). -/
def mbxBusy (s : State) : Bool := !(serving s 3) || s.serac.devRestart

/-- A request written and GO set: word 0 and the operand words. -/
def mbxReq (s : State) (m : Mbx) (cmd : Nat) (ops : List Word) : State :=
  let s := wrn s (Reg.MBX_REQ 16 0) (cmd + m.inst % 32 * 256 + m.tag.toNat * 2 ^ 32)
  forUpTo 7 (fun i t => wr t (Reg.MBX_REQ 16 (i + 1)) (ops.getD i 0)) s

/-- The response: word 0, results, DONE. -/
def mbxDone (s : State) (m : Mbx) (status : Nat) (res : List Word) : State :=
  let s := wrn s (Reg.MBX_RESP 16 0) (status + m.tag.toNat * 2 ^ 32)
  let s := forUpTo 7 (fun i t => wr t (Reg.MBX_RESP 16 (i + 1)) (res.getD i 0)) s
  emit (hwSetBit (wrb s (Reg.MBX_STATUS 16) 0 false) (Reg.MBX_STATUS 16) (Reg.MBX_EVCNT 16) 1) (.mailbox m.tag status)

/-- A request served at once: `f` gives its status, its results and the state it leaves. -/
def mbxServe (s : State) (m : Mbx) (cmd : Nat) (ops : List Word) (f : State → Nat × List Word × State) : State :=
  if rdb s (Reg.MBX_STATUS 16) 0 then s
  else
    let s := mbxReq s m cmd ops
    if mbxBusy s then mbxDone s m 0x01 []
    else if 16 < m.inst then mbxDone s m 0x02 []
    else
      let (st, res, s) := f s
      mbxDone s m st res

/-! ### Instances (R314, R316, R317) -/

/-- MSI-X vectors of a function (Table 11.2). -/
def vectorCount (fn : Nat) : Nat := if fn = 16 then 32 else 8

/-- A ring-pair record read from memory (Table 08.2), and whether it is valid (R312). -/
def readRec (s : State) (fn a : Nat) : RingRec × State :=
  let (ws, s) := busReadWords 4 s (fwWho 3) fwLabel (a / 8 * 8)
  let w (i : Nat) : Word := (ws.getD i ⟨0, true⟩).v
  let vec := fld (w 2) 10 0
  let log2ok (x : Nat) : Bool := decide (4 ≤ x) && decide (x ≤ 12)
  let ok := !ws.any (·.p) && decide (fld (w 0) 11 0 = 0) && decide (fld (w 1) 11 0 = 0) && log2ok (fld (w 0) 51 48)
    && log2ok (fld (w 1) 51 48) && decide (vec < vectorCount fn) && !(fn == 16 && vec == 0)
  (⟨fld (w 0) 47 0, fld (w 0) 51 48, fld (w 1) 47 0, fld (w 1) 51 48, vec, bit (w 2) 16, ok⟩, s)

/-- INST_CONFIG (R214, R314). -/
def execInstConfig (m : Mbx) (pairs : Nat) (recs : List Nat) (s : State) : Result :=
  .next (mbxServe s m 0x01 (BitVec.ofNat 64 pairs :: recs.map (BitVec.ofNat 64)) (fun s =>
    if 16 ≤ pairs then (0x02, [], s)
    else if 2 ≤ instState s m.inst then (0x03, [], s)
    else
      let (t, s) := (List.range 4).foldl (fun (x : Tab RingRec × State) p =>
        if Nat.testBit pairs p then
          let (r, s) := readRec x.2 m.inst (recs.getD p 0)
          (Tab.set x.1 p r, s)
        else x) (([] : Tab RingRec), s)
      (0x00, [], setInst (updFn s m.inst (fun f => { f with recs := t, recAddrs := recs })) m.inst 1)))

/-- A long operation of an instance is resumed (R316). -/
def resumeLongs (s : State) (fn : Nat) : State :=
  (s.rime.longs.filter (fun o => !o.own && o.ent.fn == fn && o.suspended)).foldl (fun t o =>
    trace (updLong t o.pid (fun o => { o with suspended := false })) 3 0x08 o.ent.tag.toNat 0) s

/-- Every consumed job and long operation of an instance is cancelled (R316). -/
def cancelAll (s : State) (fn : Nat) : State :=
  let s := (s.rime.pend.filter (fun p => p.ent.fn == fn && p.opcode == 0x01 && p.res.isNone)).foldl
    (fun t p => cancelJob t p none) s
  let s := (s.rime.pend.filter (fun p => p.ent.fn == fn && isLong p.opcode && !p.started && p.res.isNone)).foldl
    (fun t p => done t p.id 0x04) s
  (s.rime.longs.filter (fun o => !o.own && o.ent.fn == fn && o.kind != .scrub)).foldl (fun t o =>
    let o' := { o with cancelled := true }
    let t := updLong t o.pid (fun _ => o')
    if o.suspended then longCancelled t o' else t) s

/-- An OPEN instance begins to drain. -/
def quiesce (s : State) (fn : Nat) (cancel : Bool) : State :=
  let s := setInst s fn 3
  if cancel then cancelAll s fn else resumeLongs s fn

/-- INST_QUIESCE (R316). -/
def execInstQuiesce (m : Mbx) (cancel : Bool) (s : State) : Result :=
  .next (mbxServe s m 0x03 [BitVec.ofNat 64 (b2n cancel)] (fun s =>
    match instState s m.inst with
    | 2 => (0x00, [], quiesce s m.inst cancel)
    | 3 => (0x00, [], s)
    | 4 => (0x00, [], s)
    | _ => (0x03, [], s)))

/-- INSTANCE_QUIESCED (R316): every consumed entry has been completed. -/
def execInstanceQuiesced (inst : Nat) (s : State) : Result :=
  .next (if instState s inst = 3 ∧ drainedFn s inst ∧ serving s 3 then mbxEvent (setInst s inst 4) 0 else s)

/-- INST_RESET's answer by state (Table 11.3). -/
def resetAnswer (s : State) (fn : Nat) : Nat × State :=
  match instState s fn with
  | 0 => (0x00, s)
  | 1 => (0x00, resetInstance s fn)
  | 4 => (0x00, resetInstance s fn)
  | _ => (0x04, s)

def execInstReset (m : Mbx) (s : State) : Result :=
  .next (mbxServe s m 0x04 [] (fun s =>
    let (st, s) := resetAnswer s m.inst
    (st, [], s)))

/-- Every aperture entry of a function cleared. -/
def clearApts (s : State) (fn : Nat) : State :=
  { s with host := { s.host with apts := s.host.apts.filter (fun e => e.1 / 64 != fn) } }

/-- INST_REMOVE: a DISABLED instance stays as it is (Table 11.3). -/
def execInstRemove (m : Mbx) (s : State) : Result :=
  .next (mbxServe s m 0x05 [] (fun s =>
    if instState s m.inst = 0 then (0x00, [], s)
    else
      let (st, t) := resetAnswer s m.inst
      (st, [], if st = 0 then clearApts t m.inst else t)))

/-! ### Apertures (R310, R311, R313) -/

def aptOf (s : State) (fn i : Nat) : AptEnt := Tab.get {} s.host.apts (fn * 64 + i)

/-- May the entry stand (R310)? -/
def aptPermitted (s : State) (fn base : Nat) : Bool :=
  let hit (b n : Nat) : Bool := decide (b < base + 0x400000) && decide (base < b + n)
  decide (watermark s ≤ base)
  && s.rime.images.all (fun im => im.owner == fn || im.regions.all (fun r => !hit r.base r.size))
  && s.host.apts.all (fun e => e.1 / 64 == fn || !e.2.valid || !hit e.2.base 0x400000)

/-- APT_MAP (R310). -/
def execAptMap (m : Mbx) (entry : Nat) (w2 : Word) (s : State) : Result :=
  .next (mbxServe s m 0x02 [BitVec.ofNat 64 entry, w2] (fun s =>
    let base := fld w2 47 0
    let valid := bit w2 49
    if 64 ≤ entry ∨ fld w2 63 50 ≠ 0 then (0x02, [], s)
    else if valid ∧ (base % 0x400000 ≠ 0 ∨ base < dramBase ∨ 0x12000000000 < base + 0x400000) then (0x02, [], s)
    else if valid ∧ ¬ aptPermitted s m.inst base then (0x05, [], s)
    else (0x00, [], { s with host := { s.host with
      apts := Tab.set s.host.apts (m.inst * 64 + entry) ⟨base, bit w2 48, valid⟩ } })))

/-- A discarded aperture write counts in APT_DROP. -/
def aptDrop (s : State) (fn : Nat) : State :=
  wrf s (Reg.INST_STATE 16 fn) 31 16 (satAdd 16 (rdf s (Reg.INST_STATE 16 fn) 31 16) 1)

/-- Aperture requests carry class 7 and the function (R311). -/
def aptLabel (fn : Nat) : Label := ⟨7, fn⟩

/-- APERTURE_READ (R311): a poisoned word leaves as a poisoned TLP (R28). -/
def execApertureRead (fn off : Nat) (s : State) : Result :=
  .next (
    let e := aptOf s fn (off / 0x400000)
    if e.valid then
      let a := (e.base + off % 0x400000) / 8 * 8
      let (w, s) := busRead (lineRead s (aptLabel fn) a) (.host fn) a
      emit s (.readData a w.v w.p)
    else emit s (.unsupported fn off))

/-- APERTURE_WRITE (R311, R313): data with EP set is written poisoned. -/
def execApertureWrite (fn off : Nat) (val : Word) (ep : Bool) (s : State) : Result :=
  .next (
    let e := aptOf s fn (off / 0x400000)
    if e.valid ∧ e.wr then
      let a := (e.base + off % 0x400000) / 8 * 8
      busWrite (driftAccess s (aptLabel fn) a) (.host fn) (aptLabel fn) a ⟨val, ep⟩
    else aptDrop s fn)

/-! ### Function Level Reset (R318) -/

/-- The function's own reset, and what it means for its instance. -/
def flr (s : State) (fn : Nat) : State :=
  let st := instState s fn
  let s := updFn s fn (fun f => { f with bme := false })
  let s := forUpTo (vectorCount fn) (fun v t =>
    wrn (wr (wr t (Reg.MSIX_ADDR fn v) 0) (Reg.MSIX_DATA fn v) 0) (Reg.MSIX_CTL fn v) 1) s
  let s := wr s (Reg.MSIX_PBA fn) 0
  if st = 2 ∨ st = 3 then
    let s := if st = 2 then quiesce s fn true else cancelAll s fn
    mbxEvent (wrb s (Reg.INST_STATE 16 fn) 4 true) 1
  else s

/-- FUNCTION_LEVEL_RESET: of the physical function it acts on all seventeen. -/
def execFunctionLevelReset (fn : Nat) (s : State) : Result :=
  .next (if fn = 16 then forUpTo 17 (fun i t => flr t i) s else flr s fn)

/-! ### The dirty log (R320, R321) -/

/-- DIRTY_START: the bitmap lies 4 KiB aligned in non-secure DRAM; it is not cleared. -/
def execDirtyStart (m : Mbx) (base : Nat) (s : State) : Result :=
  .next (mbxServe s m 0x06 [BitVec.ofNat 64 base] (fun s =>
    if base % 4096 ≠ 0 ∨ base < watermark s ∨ 0x12000000000 < base + 0x40000 then (0x02, [], s)
    else (0x00, [], wrb { s with host := { s.host with dirty := Tab.set s.host.dirty m.inst base } }
      (Reg.INST_STATE 16 m.inst) 3 true)))

/-- DIRTY_HARVEST: each word is exchanged with 0 and copied out, one at a time. -/
def execDirtyHarvest (m : Mbx) (first words dest : Nat) (s : State) : Result :=
  .next (mbxServe s m 0x07 [BitVec.ofNat 64 first, BitVec.ofNat 64 words, BitVec.ofNat 64 dest] (fun s =>
    match Tab.find s.host.dirty m.inst with
    | none => (0x03, [], s)
    | some base =>
      if 32768 ≤ first ∨ words = 0 ∨ 4096 < words ∨ 32768 < first + words ∨ dest % 8 ≠ 0 then (0x02, [], s)
      else (0x00, [], forUpTo words (fun i t =>
        let a := base + (first + i) * 8
        let w := getWord t a
        busWrite (setWord t a (PWord.clean 0)) (fwWho 3) fwLabel (dest + i * 8) w) s)))

/-- DIRTY_STOP: the bitmap stays as it stands. -/
def execDirtyStop (m : Mbx) (s : State) : Result :=
  .next (mbxServe s m 0x08 [] (fun s => (0x00, [], stopDirty s m.inst)))

/-! ### Counts, the log ring, links and conduits (Table 11.5) -/

/-- COUNTS_READ (R238). -/
def execCountsRead (m : Mbx) (s : State) : Result :=
  .next (mbxServe s m 0x09 [] (fun s =>
    let f := getFn s m.inst
    (0x00, [f.submitted, f.completed, f.refused, f.fellBack], s)))

/-- LOG_SETUP (R243). -/
def execLogSetup (m : Mbx) (base log2 : Nat) (mask : Word) (s : State) : Result :=
  .next (mbxServe s m 0x10 [BitVec.ofNat 64 base, BitVec.ofNat 64 log2, mask] (fun s =>
    if base % 4096 ≠ 0 ∨ log2 < 8 ∨ 16 < log2 then (0x02, [], s)
    else (0x00, [], { s with rime := { s.rime with logCfg := some ⟨base, log2, mask⟩ } })))

/-- LINK_RETURN (R297): the request goes to the fabric manager, which sends PREPARE; without one it takes no return
(R290). -/
def execLinkReturn (m : Mbx) (w1 : Word) (s : State) : Result :=
  .next (mbxServe s m 0x11 [w1] (fun s =>
    if fld w1 63 8 ≠ 0 then (0x02, [], s)
    else if fabricManaged s then (0x00, [], fabricMsg s "LINK_RETURN" (fld w1 2 0) (fld w1 7 3))
    else (0x03, [], s)))

/-- The fields of a binding in range (Table 10.4). -/
def bindOk (fields : List Word) : Bool :=
  let w (i : Nat) : Word := fields.getD i 0
  let bytes := fld (w 2) 23 0
  decide (fld (w 0) 63 48 = 0) && decide (fld (w 0) 11 0 = 0) && decide (fld (w 1) 63 48 = 0)
  && decide (bytes % 64 = 0) && decide (64 ≤ bytes) && decide (bytes ≤ 8388608) && decide (1 ≤ fld (w 2) 31 24)
  && decide (fld (w 2) 63 32 = 0) && decide (fld (w 3) 63 29 = 0) && decide (fld (w 4) 63 22 = 0)

/-- Does the binding's region on this device lie within one DRAM region of an image its instance loaded (R298)? -/
def bindPermitted (s : State) (fn : Nat) (fields : List Word) : Bool :=
  let w (i : Nat) : Word := fields.getD i 0
  let base := if bit (w 4) 1 then fld (w 0) 47 0 else fld (w 1) 47 0
  let len := fld (w 2) 23 0 * fld (w 2) 31 24
  fld (w 3) 23 19 == fn && s.rime.images.any (fun i => i.owner == fn && !i.loading &&
    i.regions.any (fun r => decide (r.base ≤ base) && decide (base + len ≤ r.base + r.size)))

/-- CONDUIT_BIND (R298): the fabric manager writes the registers. -/
def execConduitBind (m : Mbx) (n : Nat) (fields : List Word) (s : State) : Result :=
  .next (mbxServe s m 0x12 (BitVec.ofNat 64 n :: fields) (fun s =>
    if 64 ≤ n ∨ ¬ bindOk fields then (0x02, [], s)
    else if ¬ bindPermitted s m.inst fields then (0x05, [], s)
    else
      let w (i : Nat) : Word := fields.getD i 0
      let s := wr (wr (wr s (Reg.CND_LOCAL n) (w 0)) (Reg.CND_REMOTE n) (w 1)) (Reg.CND_SLOT n) (w 2)
      let s := wr (wr s (Reg.CND_PEER n) (w 3)) (Reg.CND_CTL n) (w 4)
      (0x00, [], if bit (w 4) 0 then conduitEnable s n else conduitDisable s n)))

/-- CONDUIT_UNBIND. -/
def execConduitUnbind (m : Mbx) (n : Nat) (s : State) : Result :=
  .next (mbxServe s m 0x13 [BitVec.ofNat 64 n] (fun s =>
    if 64 ≤ n then (0x02, [], s)
    else
      let s := wr (wr (wr s (Reg.CND_LOCAL n) 0) (Reg.CND_REMOTE n) 0) (Reg.CND_SLOT n) 0
      (0x00, [], conduitDisable (wr (wr s (Reg.CND_PEER n) 0) (Reg.CND_CTL n) 0) n)))

end Sys2Proof.Machine
end

