-- ==== Sys2Proof/Machine/Record.lean ====
section
/-! DEFINITION. What the block remembers of itself (15): the Icecore accumulators and records (R413) and the Frost
snapshot (R414-R416). -/

namespace Sys2Proof.Machine

/-! ### Icecore (R413, Table 15.5) -/

/-- The mode in force (PWR_MODE.MODE): 0 Full, 1 Sustained, 2 Field, 3 Idle. -/
def pwrMode (s : State) : Nat := rdf s Reg.PWR_MODE 2 0

/-- The nominal value of a rail in mV (Table 16.4): rails 0-3 are the compute dies'. -/
def railNominal (s : State) (r : Nat) : Nat :=
  if r < 4 then (getDie s r).avsTarget
  else [800, 1100, 400, 1800, 750, 1200, 1800, 1200, 1800, 800, 800, 1800].getD (r - 4) 1000

/-- The 64-bit word of a record at byte offset `k`, a multiple of 8 (Table 15.5). Where the first words and the peaks
lie inside their places, and that the newest event comes first, is the model's choice (log entry 30). -/
def recWord (r : IceRec) (k : Nat) : Nat :=
  if k = 0 then 0x45434549 + r.seq % 2 ^ 32 * 2 ^ 32
  else if k = 8 then r.time.toNat
  else if k = 16 then r.svn
  else if (0x40 ≤ k ∧ k < 0x70) ∨ (0x100 ≤ k ∧ k < 0x1A0) then Tab.get 0 r.acc k
  else if k < 0xA00 then Tab.get 0 r.acc k + Tab.get 0 r.acc (k + 4) * 2 ^ 32
  else if k < 0x1200 then
    match r.events[(k - 0xA00) / 32]? with
    | none => 0
    | some e => [e.kind, e.unit, e.src, e.time.toNat].getD (k / 8 % 4) 0
  else 0

/-- The 2048 words of a record, the CRC-32 in the last four bytes. -/
def recWords (r : IceRec) : List Word :=
  let ws := (List.range 2047).map (fun i => recWord r (8 * i))
  (ws ++ [Config.recordCrc ws % 2 ^ 32 * 2 ^ 32]).map (BitVec.ofNat 64)

/-- The slot the next record takes: the next of the ring, or where its sector would have to be erased beyond its
endurance the first slot of the next sector that would not (R412, R413). -/
def recSlot (s : State) : Option Nat :=
  if s.power.iceSlot % 4 ≠ 0 then some s.power.iceSlot
  else ((List.range 64).map (fun i => (s.power.iceSlot / 4 + i) % 64)).find? (fun k => !sectorWorn s (64 + k))
    |>.map (fun k => 4 * k)

/-- The live accumulators written as one record. -/
def iceWrite (s : State) : State :=
  let want := s.power.iceSlot
  match recSlot s with
  | none => hwSetBit s Reg.ICE_STATUS Reg.ICE_EVCNT 1
  | some k =>
    let s := if k % 4 = 0 then
        let s := eraseSector s (64 + k / 4)
        { s with power := { s.power with ring := s.power.ring.filter (fun e => e.1 / 4 != k / 4) } }
      else s
    let seq := (rdn s Reg.ICE_SEQ + 1) % 2 ^ 32
    let ice := s.power.ice
    let rec_ : IceRec := ⟨ice.acc, ice.events, seq, now s, rdf s Reg.FW_STATUS 31 16⟩
    let s := { s with power := { s.power with ring := (k, rec_) :: s.power.ring, iceSlot := (k + 1) % 256 } }
    hwSet (wrn s Reg.ICE_SEQ seq) Reg.ICE_STATUS Reg.ICE_EVCNT (if k = want then 1 else 3)

/-- The record of an age: 0 the live values, 1 the newest record. -/
def recOfAge (s : State) (age : Nat) : Option IceRec :=
  if age = 0 then
    some { s.power.ice with seq := rdn s Reg.ICE_SEQ, time := now s, svn := rdf s Reg.FW_STATUS 31 16 }
  else (s.power.ring[age - 1]?).map (·.2)

/-- ICECORE_WRITE (R413). -/
def execIcecoreWrite (m : Mbx) (s : State) : Result :=
  .next (mbxServe s m 0x24 [] (fun s => (0x00, [], iceWrite s)))

/-- ICECORE_READ (Table 15.3): one 16 KiB record copied to memory; an age with no record is out of range. -/
def execIcecoreRead (m : Mbx) (age dest : Nat) (s : State) : Result :=
  .next (mbxServe s m 0x25 [BitVec.ofNat 64 age, BitVec.ofNat 64 dest] (fun s =>
    match recOfAge s age with
    | none => (0x02, [], s)
    | some r => (0x00, [], busWriteBytes (fwWho 3) fwLabel 2049 s dest (wordBytes ((recWords r).map PWord.clean)))))

/-- ICECORE_PERIODIC_WRITE (R413): every 3,600 s of power-on time. -/
def execIcecorePeriodicWrite (s : State) : Result :=
  .next (if serving s 3 ∧ rdn s Reg.ICE_POH ≠ 0 ∧ rdn s Reg.ICE_POH % 3600 = 0 then iceWrite s else s)

/-- The bin of a junction temperature in 0.1 °C: 10 °C each, from below -20 °C to 120 °C and above. -/
def tjBin (t : Int) : Nat :=
  if t < -200 then 0 else if 1200 ≤ t then 15 else 1 + ((t + 200) / 100).toNat

/-- The bin of a rail's value: 1 % of nominal each, from below -7 % to +7 % and above. -/
def railBin (nom mv : Nat) : Nat :=
  let d : Int := (100 * ((mv : Int) - nom)) / nom
  if d < -7 then 0 else if 7 ≤ d then 15 else 1 + (d + 7).toNat

/-- A peak kept in an accumulator: the value that `better` prefers. -/
def icePeak (s : State) (off : Nat) (z : Int) (better : Int → Int → Bool) : State :=
  let ice := s.power.ice
  let new := match Tab.find ice.acc off with
    | none => z
    | some x => if better z (toSigned 32 x) then z else toSigned 32 x
  { s with power := { s.power with ice := { ice with acc := Tab.set ice.acc off (ofSigned 32 new) } } }

/-- PWR_TJ of each die (R417). -/
def setTj (s : State) (tj : List Celsius10) : State :=
  forUpTo 5 (fun d t => match tj[d]? with
    | some x => wrf t Reg.PWR_TJ (12 * d + 11) (12 * d) (ofSigned 12 x)
    | none => t) s

/-- One second's temperatures and rails. -/
def iceSecond (s : State) (tj : List Celsius10) (rails : List Nat) : State :=
  let s := forUpTo 5 (fun d t => match tj[d]? with
    | some x => icePeak (iceAdd t (0x300 + d * 64 + tjBin x * 4) 32 1) (0x900 + 4 * d) x (fun a b => decide (b < a))
    | none => t) s
  forUpTo 16 (fun r t => match rails[r]? with
    | some x =>
      let t := iceAdd t (0x500 + r * 64 + railBin (railNominal t r) x * 4) 32 1
      icePeak (icePeak t (0x914 + 8 * r) x (fun a b => decide (a < b))) (0x918 + 8 * r) x (fun a b => decide (b < a))
    | none => t) s

/-- ICECORE_SAMPLE (R413): one second of power-on time. In Standby only the seconds in Standby count (log entry 31). -/
def execIcecoreSample (tj : List Celsius10) (rails : List Nat) (s : State) : Result :=
  .next (match s.power.boot with
    | .held => s
    | .standby => iceAdd s 0x68 64 1
    | _ =>
      let s := iceAdd (iceAdd (iceSecond (setTj s tj) tj rails) 0x40 64 1) (0x48 + 8 * pwrMode s) 64 1
      wrn s Reg.ICE_POH (Tab.get 0 s.power.ice.acc 0x40))

/-! ### Frost (R414-R417) -/

/-- ARM: the snapshot and what told of it are cleared; a trigger of the same cycle comes after it (R415). -/
def frostArmOp (s : State) : State :=
  let s := { s with power := { s.power with frost := [], frostDies := [] } }
  wr (wrf (wrf s Reg.FROST_STATUS 5 0 1) Reg.FROST_STATUS 11 7 0) Reg.FROST_TIME 0

/-- A write of FROST_CTL (Table 15.6). -/
def frostCtl (s : State) (who : Requester) (v : Word) : State :=
  let t := regWrite s who Reg.FROST_CTL 32 v
  if mayWrite s who .power 0 0x380 ∧ bit v 0 then frostArmOp t else t

/-- FROST_ARM (Table 15.3): a reserved bit or a compare unit above 11 is refused. -/
def execFrostArm (m : Mbx) (val : BitVec 32) (s : State) : Result :=
  .next (mbxServe s m 0x26 [val.zeroExtend 64] (fun s =>
    if val.toNat / 2 ^ 22 ≠ 0 ∨ val.toNat / 2 ^ 9 % 128 ≠ 0 ∨ 11 < val.toNat / 32 % 16 then (0x02, [], s)
    else (0x00, [], frostCtl s (.rime 3 .secure) (val.zeroExtend 64))))

/-- FROST_TRIG (R414): a write of FROST_TRIG through debug. -/
def execFrostTrig (s : State) : Result := .next (frostHit s 0)

/-- The die a register lies on, 4 for the hub. -/
def dieOfReg (a : Nat) : Nat :=
  match blkOf a with
  | some (.die, u, _) => u
  | some (.dctl, u, _) => u / 2
  | some (.cluster, u, _) => u / 4
  | some (.core, u, _) => u / 32
  | some (.clkd, u, _) => u
  | _ => 4

/-- Every core channel, cluster channel and hub channel with a state of its own, and the registers whose value a
queue gives: their values do not stand in `regs`. -/
def shownRegs (s : State) : List Nat :=
  (s.cores.map (fun c => Reg.CORE_QDEPTH c.1))
  ++ (s.chans.flatMap (fun c =>
      let id : ChanId := if c.1 < 2048 then .core (c.1 / 8) (c.1 % 8)
        else if c.1 < 4096 then .cluster ((c.1 - 2048) / 16) ((c.1 - 2048) % 16) else .hub (c.1 - 4096)
      [Reg.MV_SRC id, Reg.MV_DST id, Reg.MV_COUNT id]))
  ++ ((List.range 8).flatMap (fun c => [Reg.CAP_TIME c, Reg.CAP_INFO c]))
  ++ ((List.range 4).map Reg.TTQ_STATUS)
  ++ ((List.range 13).flatMap (fun p => [Reg.TSQ_TIME p, Reg.TSQ_INFO p, Reg.TSQ_COUNT p]))

/-- The dies that latch: the hub and every powered die that is not restarting. -/
def latching (s : State) (d : Nat) : Bool := d == 4 || (!parked s d && !s.serac.restarting.contains d)

/-- The registers latched on the dies that latch; the others keep what they held. -/
def frostCopy (s : State) : Tab Word :=
  let on (a : Nat) : Bool := latching s (dieOfReg a)
  let kept := s.power.frost.filter (fun e => !on e.1)
  let t := (s.regs.map (·.1) ++ shownRegs s).foldl (fun t a =>
    if on a then Tab.set t a (regValue s a) else t) ([] : Tab Word)
  kept.foldl (fun t e => Tab.set t e.1 e.2) t

/-- FROST_LATCH (R414, R415): two cycles after the triggers. A die in warm reset keeps its earlier snapshot and is
MISSED. -/
def frostLatch (s : State) : State :=
  let trig := s.power.frostTrig
  if trig = 0 then s
  else
    let copy := frostCopy s
    let dies := (List.range 5).filter (latching s)
    let missed := ((List.range 4).map (fun d => if s.serac.restarting.contains d then 2 ^ d else 0)).foldl (· + ·) 0
    let s := { s with power := { s.power with
      frostTrig := 0, frost := copy, frostDies := dies.foldl (fun t d => NatSet.ins d t) s.power.frostDies } }
    let s := wr s Reg.FROST_TIME (now s)
    let s := wrf (wrf s Reg.FROST_STATUS 5 0 (2 + trig * 4)) Reg.FROST_STATUS 11 7 missed
    hwSetBit s Reg.FROST_STATUS Reg.FROST_EVCNT 6

def execFrostLatch (s : State) : Result := .next (frostLatch s)

/-- A register's snapshot (R416): 0 while nothing is held of its die, and where no register lies. -/
def frostWord (s : State) (a : Nat) : Word :=
  if s.power.frostDies.contains (dieOfReg a) then Tab.get (regReset a) s.power.frost a else 0

/-- A snapshot read of `width` bits at a register's own address. -/
def frostValue (s : State) (a : Nat) : Word :=
  match regKey a with
  | some (k, false) => frostWord s k
  | some (k, true) => frostWord s k >>> 32
  | none => 0

end Sys2Proof.Machine
end

