-- ==== Sys2Proof/Machine/Security.lean ====
section
/-! DEFINITION. The management network (R342-R345), the worlds and the monitor's services (R331), enclaves
(R332-R334), and the secure claims on power and clock (R338, R339). -/

namespace Sys2Proof.Machine

/-! ### SPDM and MCTP (R342-R344) -/

/-- The service processor answers the management network: it runs firmware, and the device has started. -/
def mgtUp (s : State) : Bool := (s.power.boot == .started || s.power.boot == .ready)

def getSes (s : State) (n : Nat) : Option SesSt := Tab.find s.sec.ses n
def setSes (s : State) (t : Tab SesSt) : State := { s with sec := { s.sec with ses := t } }

/-- The session is authenticated under a management root. -/
def sesAuth (s : State) (n : Nat) : Bool :=
  match getSes s n with
  | some x => x.auth
  | none => false

/-- The message's session stands: 0 is no session. -/
def sesThere (s : State) (n : Nat) : Bool := n == 0 || (getSes s n).isSome

/-- An answer's bytes: of the request's code and what it depends on. -/
def spdmAns (s : State) (name : String) (code : Nat) (ps : List Nat) : State :=
  emit s (.spdm name (Config.spdmBytes code ps))

/-- The answer ERROR. -/
def spdmErr (s : State) (code : Nat) : State := spdmAns s "ERROR" 0x7F [code]

/-- A request judged and answered while the responder runs. -/
def spdmServe (s : State) (ses code : Nat) (ok : Bool) (f : State → State) : State :=
  if ¬ mgtUp s then s
  else if live s 3 ∧ sesThere s ses ∧ ok then f s
  else spdmErr s code

/-- MCTP_CONTROL (R342): the endpoint answers. -/
def execMctpControl (req : List Byte) (s : State) : Result :=
  .next (if mgtUp s then emit s (.spdm "MCTP" (Config.spdmBytes 0x00 (req.map (·.toNat)))) else s)

def execGetVersion (ses : Nat) (s : State) : Result :=
  .next (spdmServe s ses 0x84 true (fun s => spdmAns s "VERSION" 0x84 [ses]))

def execGetCapabilities (ses : Nat) (s : State) : Result :=
  .next (spdmServe s ses 0xE1 true (fun s => spdmAns s "CAPABILITIES" 0xE1 [ses]))

def execNegotiateAlgorithms (ses : Nat) (s : State) : Result :=
  .next (spdmServe s ses 0xE3 true (fun s => spdmAns s "ALGORITHMS" 0xE3 [ses]))

/-- GET_DIGESTS: of slot 0's chain, the only one (R343). -/
def execGetDigests (ses : Nat) (s : State) : Result :=
  .next (spdmServe s ses 0x81 true (fun s => spdmAns s "DIGESTS" 0x81 [ses, deviceUid s]))

/-- GET_CERTIFICATE: slots 1-7 are empty (R343). -/
def execGetCertificate (ses slot off len : Nat) (s : State) : Result :=
  .next (spdmServe s ses 0x82 (slot == 0) (fun s => spdmAns s "CERTIFICATE" 0x82 [ses, off, len, deviceUid s]))

/-- CHALLENGE: a fresh nonce of the responder is an open value. -/
def execChallenge (ses : Nat) (nonce : BitVec 256) (s : State) : Result :=
  .next (spdmServe s ses 0x83 true (fun s =>
    spdmAns (drawn s) "CHALLENGE_AUTH" 0x83 [ses, nonce.toNat, deviceUid s, (freshVal s).toNat]))

/-- What a measurement block holds (Table 12.11), none where it is absent. -/
def measurement (s : State) (idx : Nat) : Option (List Nat) :=
  if idx = 1 then some [1]
  else if idx = 2 then some [2]
  else if idx = 3 then some [3, rdf s Reg.FW_STATUS 31 16, rdf s Reg.FW_STATUS 0 0]
  else if idx = 4 then some (4 :: rdn s Reg.MEM_SECURE_WM :: rdn s Reg.SEC_DBG :: s.power.nvm.roots.map (·.toNat))
  else if idx = 5 then some [5, rdf s Reg.SEC_TENANT 1 0, rdn s Reg.SEC_TENANT_ID]
  else if idx = 6 then some [6, rdn s Reg.SEC_CLAIM, rdn s Reg.SEC_PIN]
  else if 16 ≤ idx ∧ idx < 24 ∧ rdb s (Reg.ENCL_A (idx - 16)) 51 ∧ rdb s (Reg.ENCL_A (idx - 16)) 52 then
    some [idx, (Tab.get ({} : EnclSt) s.sec.encl (idx - 16)).meas.toNat]
  else none

/-- GET_MEASUREMENTS (R344): index 0 asks how many blocks there are, 255 for all of them (DSP0274). -/
def execGetMeasurements (ses idx : Nat) (nonce : BitVec 256) (s : State) : Result :=
  let all := (List.range 24).filterMap (measurement s)
  let body := if idx = 0 then some [all.length] else if idx = 255 then some all.flatten else measurement s idx
  .next (spdmServe s ses 0xE0 body.isSome (fun s =>
    spdmAns (drawn s) "MEASUREMENTS" 0xE0
      ([ses, idx, nonce.toNat, deviceUid s, (freshVal s).toNat] ++ body.getD [])))

/-- KEY_EXCHANGE (R343): opens session `ses`; at most two, and only with mutual authentication. -/
def execKeyExchange (ses : Nat) (mutAuth : Bool) (exch : List Byte) (s : State) : Result :=
  .next (spdmServe s 0 0xE4 (mutAuth && ses != 0 && (getSes s ses).isNone && decide (s.sec.ses.length < 2)) (fun s =>
    spdmAns (drawn (setSes s (Tab.set s.sec.ses ses ⟨true, false, 0, 0⟩))) "KEY_EXCHANGE_RSP" 0xE4
      (ses :: (freshVal s).toNat :: exch.map (·.toNat))))

/-- The management root under which a chain and its signature verify. -/
def rootFor (s : State) (chain verify : List Byte) : Option Nat :=
  (List.range 2).find? (fun i => match s.power.nvm.roots[i]? with
    | some d => Config.spdmVerify d chain verify
    | none => false)

/-- FINISH (R345): the session is authenticated where the requester's chain verifies under a management root, and ends
where it does not. -/
def execFinish (ses : Nat) (chain : List Byte) (verify : List Byte) (s : State) : Result :=
  .next (match getSes s ses with
    | some x =>
      spdmServe s ses 0xE5 (!x.auth) (fun s =>
        match rootFor s chain verify with
        | some i => spdmAns (setSes s (Tab.set s.sec.ses ses { x with auth := true, root := i })) "FINISH_RSP" 0xE5 [ses]
        | none => spdmErr (setSes s (Tab.del s.sec.ses ses)) 0xE5)
    | none => spdmServe s ses 0xE5 false id)

/-- HEARTBEAT: answered in a session. -/
def execHeartbeat (ses : Nat) (s : State) : Result :=
  .next (spdmServe s ses 0xE8 (sesAuth s ses) (fun s => spdmAns s "HEARTBEAT_ACK" 0xE8 [ses]))

/-- KEY_UPDATE: the session's keys are replaced. -/
def execKeyUpdate (ses : Nat) (s : State) : Result :=
  .next (spdmServe s ses 0xE9 (sesAuth s ses) (fun s =>
    match getSes s ses with
    | some x => spdmAns (setSes s (Tab.set s.sec.ses ses { x with keyGen := x.keyGen + 1 })) "KEY_UPDATE_ACK" 0xE9 [ses]
    | none => s))

/-- END_SESSION. -/
def execEndSession (ses : Nat) (s : State) : Result :=
  .next (spdmServe s ses 0xEC (sesAuth s ses) (fun s =>
    spdmAns (setSes s (Tab.del s.sec.ses ses)) "END_SESSION_ACK" 0xEC [ses]))

/-- GET_ENCAPSULATED_REQUEST: within a session whose mutual authentication is still to be completed. -/
def execGetEncapsulatedRequest (ses : Nat) (s : State) : Result :=
  .next (spdmServe s ses 0xEA (ses != 0 && !sesAuth s ses) (fun s => spdmAns s "ENCAPSULATED_REQUEST" 0xEA [ses]))

/-- DELIVER_ENCAPSULATED_RESPONSE: within a session whose mutual authentication is still to be completed. -/
def execDeliverEncapsulatedResponse (ses : Nat) (resp : List Byte) (s : State) : Result :=
  .next (spdmServe s ses 0xEB (ses != 0 && !sesAuth s ses) (fun s =>
    spdmAns s "ENCAPSULATED_RESPONSE_ACK" 0xEB (ses :: resp.map (·.toNat))))

/-! ### Management commands (R345, Table 12.9) -/

/-- A command served in an authenticated session: `f` gives its status, its results and the state it leaves. -/
def mgmtServe (s : State) (ses : Nat) (f : State → Nat × List Word × State) : State :=
  if ¬ mgtUp s then s
  else if ¬ sesAuth s ses then emit s (.mgmt 0x01 [])
  else if ¬ live s 3 then emit s (.mgmt 0x04 [])
  else
    let (st, ws, s) := f s
    emit s (.mgmt st ws)

/-- SEC_TENANT.STATE (Table 12.1): 0 UNASSIGNED, 1 ASSIGNED, 2 SCRUBBING. -/
def tenantState (s : State) : Nat := rdf s Reg.SEC_TENANT 1 0

/-- A change of the device region; a worn sector refuses it (log entry 32). -/
def devSave (s : State) (x : NvmSt) (f : State → State) : Nat × List Word × State :=
  if regionWorn s 0 then (0x03, [], hwSetBit s Reg.NVM_STATUS Reg.NVM_EVCNT 2)
  else (0x00, [], f (nvmSave s 0 x))

/-- TENANT_ASSIGN (R322). -/
def execTenantAssign (ses : Nat) (id : Word) (s : State) : Result :=
  .next (mgmtServe s ses (fun s =>
    if id = 0 then (0x02, [], s)
    else if tenantState s ≠ 0 then (0x03, [], s)
    else devSave s { s.power.nvm with tenant := 1, tenantId := id } (fun s =>
      wr (wrf s Reg.SEC_TENANT 1 0 1) Reg.SEC_TENANT_ID id)))

def execTenantQuery (ses : Nat) (s : State) : Result :=
  .next (mgmtServe s ses (fun s => (0x00, [rd s Reg.SEC_TENANT, rd s Reg.SEC_TENANT_ID], s)))

/-- KEY_LOAD: image 0 names the fabric-key slot alone. -/
def execKeyLoad (ses slot : Nat) (image : Word) (key : BitVec 256) (s : State) : Result :=
  .next (mgmtServe s ses (fun s =>
    if 32 ≤ slot ∨ (image = 0 ∧ slot ≠ s.baseth.plan.keySlot) then (0x02, [], s)
    else if tenantState s ≠ 1 ∨ (image ≠ 0 ∧ (imgOf s image).isNone) then (0x03, [], s)
    else (0x00, [], keySet s slot ⟨key, image⟩)))

def execKeyErase (ses slot : Nat) (s : State) : Result :=
  .next (mgmtServe s ses (fun s =>
    if 32 ≤ slot then (0x02, [], s)
    else (0x00, [], setBas s { s.baseth with keys := Tab.del s.baseth.keys slot })))

/-- DEBUG_AUTH (R335). -/
def execDebugAuth (ses : Nat) (dbg : BitVec 4) (s : State) : Result :=
  .next (mgmtServe s ses (fun s =>
    if tenantState s ≠ 0 ∧ tenantState s ≠ 1 then (0x03, [], s)
    else (0x00, [], wrn s Reg.SEC_DBG dbg.toNat)))

/-- RETIRE_CLEAR (R186, R326). -/
def execRetireClear (ses die stack pch : Nat) (s : State) : Result :=
  .next (mgmtServe s ses (fun s =>
    if 4 ≤ die ∨ (stack ≠ 2 * die ∧ stack ≠ 2 * die + 1) ∨ 32 ≤ pch then (0x02, [], s)
    else if ¬ s.power.nvm.pchPassed.contains (stack, pch) ∨ regionWorn s 1 then (0x03, [], s)
    else
      let nvm := s.power.nvm
      (0x00, [], nvmSave s 1 { nvm with
        retire := nvm.retire.filter (fun e => !(e.stack == stack && e.pch == pch)),
        pchPassed := nvm.pchPassed.filter (· != (stack, pch)) })))

/-- ROOT_SET (R345): never the root that authenticated the session. -/
def execRootSet (ses idx : Nat) (digest : BitVec 384) (s : State) : Result :=
  .next (mgmtServe s ses (fun s =>
    if 2 ≤ idx then (0x02, [], s)
    else if (getSes s ses).map (·.root) = some idx then (0x03, [], s)
    else
      let old := s.power.nvm.roots
      let new := if idx = 0 then digest :: old.drop 1 else [old.getD 0 0, digest]
      devSave s { s.power.nvm with roots := new } id))

/-- WM_SET (R329): 256 MiB to 8 GiB in steps of 64 MiB, in force from the next start. -/
def execWmSet (ses : Nat) (wm : Nat) (s : State) : Result :=
  .next (mgmtServe s ses (fun s =>
    if wm < dramBase + 0x10000000 ∨ dramBase + 0x200000000 < wm ∨ wm % 0x4000000 ≠ 0 then (0x02, [], s)
    else devSave s { s.power.nvm with wm := wm } id))

/-- FROST_TRIGGER (R414). -/
def execFrostTrigger (ses : Nat) (s : State) : Result :=
  .next (mgmtServe s ses (fun s => (0x00, [], frostHit s 3)))

/-- FROST_READ (R416): 1-128 words of 32 bits from an address. -/
def execFrostRead (ses addr words : Nat) (s : State) : Result :=
  .next (mgmtServe s ses (fun s =>
    if words = 0 ∨ 128 < words ∨ addr % 4 ≠ 0 then (0x02, [], s)
    else if ¬ rdb s Reg.FROST_STATUS 1 then (0x03, [], s)
    else (0x00, (List.range words).map (fun i => frostValue s (addr + 4 * i) &&& maskOf 31 0), s)))

/-- ICECORE_READ over the management network: `len` bytes of a record, packed into words. -/
def execMgtIcecoreRead (ses age off len : Nat) (s : State) : Result :=
  .next (mgmtServe s ses (fun s =>
    match recOfAge s age with
    | none => (0x02, [], s)
    | some r =>
      if len = 0 ∨ 4032 < len ∨ 16384 < off + len then (0x02, [], s)
      else
        let bs := (((wordBytes ((recWords r).map PWord.clean)).map (·.1)).drop off).take len
        (0x00, (List.range (ceilDiv len 8)).map (fun i => BitVec.ofNat 64 (ofBytesLE ((bs.drop (8 * i)).take 8))), s)))

/-! ### World instructions (R331) -/

def getProc (s : State) (p : Nat) : ProcSt := Tab.get {} s.sec.procs p
def setProc (s : State) (p : Nat) (x : ProcSt) : State := { s with sec := { s.sec with procs := Tab.set s.sec.procs p x } }

/-- The processor runs the monitor: secure, in machine mode, entered from somewhere. -/
def inMonitor (s : State) (p : Nat) : Bool :=
  let x := getProc s p
  x.saved.isSome && x.world == .secure && x.priv == 3

/-- The monitor entered with the address to return to. -/
def monitorEnter (s : State) (p : Nat) (ret : Word) : State :=
  let x := getProc s p
  setProc s p { x with
    saved := some ⟨ret, x.priv, x.world⟩, world := .secure, priv := 3, pc := Config.monVector p }

/-- WCALL (R331): the saved pc is that of the instruction after it (log entry 33). -/
def execWcall (p : Nat) (s : State) : Result :=
  .next (if live s p then monitorEnter s p ((getProc s p).pc + 4) else s)

/-- x1-x31 and f0-f31 cleared but for a0 and a1. -/
def ProcSt.cleared (x : ProcSt) : ProcSt := { x with x := x.x.filter (fun e => e.1 == 10 || e.1 == 11), f := [] }

/-- WRET (R331): outside the monitor an illegal-instruction exception. -/
def execWret (p : Nat) (s : State) : Result :=
  .next (if ¬ live s p then s
    else
      let x := getProc s p
      match x.saved with
      | some c =>
        if inMonitor s p then
          let x := if c.world = .secure then x else x.cleared
          setProc s p { x with pc := c.pc, priv := c.priv, world := c.world, saved := none }
        else setProc s p { x with illegal := x.illegal + 1 }
      | none => setProc s p { x with illegal := x.illegal + 1 })

/-- SECURE_INTERRUPT (R331). -/
def execSecureInterrupt (p : Nat) (s : State) : Result :=
  .next (if live s p ∧ (getProc s p).world ≠ .secure then
    let s := monitorEnter s p (getProc s p).pc
    setProc s p { getProc s p with x := Tab.set (getProc s p).x 17 0xFFFF }
  else s)

/-! ### Services (Table 12.5) -/

/-- A register of a processor. -/
def procX (s : State) (p i : Nat) : Nat := (Tab.get 0 (getProc s p).x i).toNat

/-- A service's result in a0. -/
def svcRet (s : State) (p : Nat) (v : Word) : State :=
  setProc s p { getProc s p with x := Tab.set (getProc s p).x 10 v }

/-- The service's -1. -/
def svcFail : Word := BitVec.allOnes 64

/-- The monitor serves the call it was entered for. -/
def service (s : State) (p code : Nat) (f : State → SavedCtx → State) : State :=
  match (getProc s p).saved with
  | some c => if live s p ∧ inMonitor s p ∧ procX s p 17 = code then f s c else s
  | none => s

def execMonVersion (p : Nat) (s : State) : Result :=
  .next (service s p 0x00 (fun s _ => svcRet s p Config.monVersion))

/-! ### Claims on power and clock (R338, R339) -/

/-- A cut or a restore of a block's clock or power performed; a die's cut gates its CCLK, and a die whose power returns
has its stores filled again (R174; log entry 34). -/
def performCut (s : State) (power : Bool) (b : Nat) (on : Bool) : State :=
  let upd (t : NatSet) : NatSet := if on then NatSet.ins b t else NatSet.rem b t
  let s := if power then { s with power := { s.power with pwrCut := upd s.power.pwrCut } }
    else { s with power := { s.power with clkCut := upd s.power.clkCut } }
  if b < 4 ∧ power ∧ ¬ on then fillStart s b else s

/-- A request to cut block `b`. -/
def cutRequest (s : State) (w : World) (power : Bool) (b : Nat) : State :=
  if rdb s Reg.SEC_CLAIM b ∧ w ≠ .secure then
    let s := wrb (wrb s Reg.SEC_PM_PEND b true) Reg.SEC_PM_KIND b power
    notify (hwSetBit s Reg.SEC_STATUS Reg.SEC_EVCNT 1) "service processor" "PM_PENDED" b
  else performCut s power b true

/-- A request to restore block `b`. -/
def restoreRequest (s : State) (w : World) (power : Bool) (b : Nat) : State :=
  if rdb s Reg.SEC_PM_PEND b ∧ w ≠ .secure then wrb s Reg.SEC_PM_PEND b false
  else performCut s power b false

/-- A write of PWR_CLK_OFF or PWR_PWR_OFF by processor 3: a bit that becomes 1 requests a cut, one that becomes 0 a
restore. -/
def cutWrite (s : State) (w : World) (power : Bool) (v : Word) : State :=
  let a := if power then Reg.PWR_PWR_OFF else Reg.PWR_CLK_OFF
  let old := rd s a
  let s := regWrite s (.rime 3 w) a 64 v
  forUpTo 28 (fun b t =>
    if bit v b ∧ ¬ bit old b then cutRequest t w power b
    else if ¬ bit v b ∧ bit old b then restoreRequest t w power b
    else t) s

def execClockCutRequest (w : World) (val : Word) (s : State) : Result :=
  .next (if live s 3 then cutWrite s w false val else s)

def execPowerCutRequest (w : World) (val : Word) (s : State) : Result :=
  .next (if live s 3 then cutWrite s w true val else s)

/-- PM_CLAIM: the secure world claims a block. -/
def execPmClaim (p : Nat) (s : State) : Result :=
  .next (service s p 0x01 (fun s c =>
    if c.world = .secure ∧ procX s p 10 < 28 then svcRet (wrb s Reg.SEC_CLAIM (procX s p 10) true) p 0
    else svcRet s p 1))

/-! ### Enclaves (R332-R334) -/

def getEncl (s : State) (n : Nat) : EnclSt := Tab.get {} s.sec.encl n
def setEncl (s : State) (n : Nat) (x : EnclSt) : State := { s with sec := { s.sec with encl := Tab.set s.sec.encl n x } }

/-- An enclave's base and size in bytes. -/
def enclRange (s : State) (n : Nat) : Nat × Nat :=
  (rdf s (Reg.ENCL_A n) 47 12 * 4096, rdf s (Reg.ENCL_B n) 28 12 * 4096)

def enclValid (s : State) (n : Nat) : Bool := decide (n < 8) && rdb s (Reg.ENCL_A n) 51
def enclInited (s : State) (n : Nat) : Bool := rdb s (Reg.ENCL_A n) 52
def enclRuns (s : State) (n : Nat) : Bool := rdb s (Reg.ENCL_A n) 53

/-- Was the service called from inside an enclave? -/
def fromEnclave (c : SavedCtx) : Option Nat :=
  match c.world with
  | .enclave n => some n
  | _ => none

/-- May an enclave take the range (R332)? -/
def enclFits (s : State) (base size : Nat) : Bool :=
  let hit (b n : Nat) : Bool := decide (b < base + size) && decide (base < b + n)
  decide (base % 4096 = 0) && decide (size % 4096 = 0) && decide (4096 ≤ size) && decide (size ≤ 0x10000000)
  && decide (watermark s ≤ base) && decide (base + size ≤ 0x12000000000)
  && s.host.apts.all (fun e => !e.2.valid || !hit e.2.base 0x400000)
  && s.rime.images.all (fun i => i.regions.all (fun r => !hit r.base r.size))
  && (List.range 8).all (fun n => !enclValid s n || !hit (enclRange s n).1 (enclRange s n).2)

/-- The bytes from `lo` to below `hi` zeroed with clear poison. -/
def zeroRange (s : State) (lo hi : Nat) : State :=
  { s with mem := memClear s.mem lo hi, poison := s.poison.filter (fun w => !(lo / 8 ≤ w && w < hi / 8)) }

/-- ENCL_CREATE: the lowest free enclave takes the range, zeroed. -/
def execEnclCreate (p : Nat) (s : State) : Result :=
  .next (service s p 0x10 (fun s c =>
    let base := procX s p 10
    let size := procX s p 11
    match (List.range 8).find? (fun n => !enclValid s n) with
    | none => svcRet s p svcFail
    | some n =>
      if (fromEnclave c).isSome ∨ ¬ enclFits s base size then svcRet s p svcFail
      else
        let s := setEncl (zeroRange s base (base + size)) n {}
        let s := wrn s (Reg.ENCL_A n) (base + p * 2 ^ 48 + 2 ^ 51)
        svcRet (wrn s (Reg.ENCL_B n) size) p (BitVec.ofNat 64 n)))

/-- ENCL_ADD: a page of non-secure memory copied in, and the measurement extended with its offset and content. -/
def execEnclAdd (p : Nat) (s : State) : Result :=
  .next (service s p 0x11 (fun s c =>
    let n := procX s p 10
    let src := procX s p 11
    let off := procX s p 12
    if (fromEnclave c).isSome ∨ ¬ enclValid s n ∨ enclInited s n ∨ off % 4096 ≠ 0 ∨ (enclRange s n).2 ≤ off
      ∨ src % 4096 ≠ 0 ∨ src < watermark s ∨ 0x12000000000 < src + 4096 ∨ (enclaveAt s src).isSome then
      svcRet s p svcFail
    else
      let (ws, s) := busReadWords 512 s (.rime p .secure) fwLabel src
      let s := setWords s ((enclRange s n).1 + off) ws
      let old := (getEncl s n).meas
      let bs := bytesLE 48 old.toNat ++ bytesLE 8 off ++ (wordBytes ws).map (·.1)
      svcRet (setEncl s n { getEncl s n with meas := Config.sha384 bs }) p 0))

/-- ENCL_INIT: the measurement and the entry point fixed. -/
def execEnclInit (p : Nat) (s : State) : Result :=
  .next (service s p 0x12 (fun s c =>
    let n := procX s p 10
    let entry := procX s p 11
    if (fromEnclave c).isSome ∨ ¬ enclValid s n ∨ enclInited s n ∨ (enclRange s n).2 ≤ entry then svcRet s p svcFail
    else svcRet (setEncl (wrb s (Reg.ENCL_A n) 52 true) n { getEncl s n with entry := entry }) p 0))

/-- ENCL_ENTER (R332, R333): the owner runs the enclave at user level, from its entry or from where an interrupt left
it. -/
def execEnclEnter (p : Nat) (s : State) : Result :=
  .next (service s p 0x13 (fun s c =>
    let n := procX s p 10
    if (fromEnclave c).isSome ∨ ¬ enclValid s n ∨ ¬ enclInited s n ∨ enclRuns s n ∨ rdf s (Reg.ENCL_A n) 50 48 ≠ p then
      svcRet s p svcFail
    else
      let e := getEncl s n
      let x := getProc s p
      let x : ProcSt := match e.saved with
        | none => { x.cleared with pc := BitVec.ofNat 64 ((enclRange s n).1 + e.entry) }
        | some rs => { x with
            x := rs.filter (fun (r : Nat × Word) => decide (r.1 < 32)),
            f := (rs.filter (fun (r : Nat × Word) => decide (32 ≤ r.1 ∧ r.1 < 64))).map (fun (r : Nat × Word) => (r.1 - 32, r.2)),
            pc := Tab.get 0 rs 64 }
      let s := setEncl (wrb s (Reg.ENCL_A n) 53 true) n { e with saved := none, caller := some c }
      setProc s p { x with world := .enclave n, priv := 0, saved := none }))

/-- ENCL_EXIT (R333): the monitor's return goes to the caller of ENCL_ENTER, with exit cause 0. -/
def execEnclExit (p : Nat) (s : State) : Result :=
  .next (service s p 0x14 (fun s c =>
    match fromEnclave c with
    | none => svcRet s p svcFail
    | some n =>
      let e := getEncl s n
      let s := setEncl (wrb s (Reg.ENCL_A n) 53 false) n { e with caller := none }
      let s := setProc s p { getProc s p with saved := e.caller }
      svcRet s p 0))

/-- ENCL_INTERRUPT_EXIT (R333): the enclave's registers are saved and cleared, and its caller sees exit cause 1. -/
def execEnclInterruptExit (p : Nat) (s : State) : Result :=
  .next (let x := getProc s p
    match x.world with
    | .enclave n =>
      match (getEncl s n).caller with
      | some c =>
        if live s p then
          let regs : List (Nat × Word) := x.x ++ x.f.map (fun r => (r.1 + 32, r.2)) ++ [(64, x.pc)]
          let s := setEncl (wrb s (Reg.ENCL_A n) 53 false) n { getEncl s n with saved := some regs, caller := none }
          setProc s p { x with
            x := [(10, 1)], f := [], pc := c.pc, priv := c.priv, world := c.world }
        else s
      | none => s
    | _ => s)

/-- ENCL_DESTROY (R334). -/
def execEnclDestroy (p : Nat) (s : State) : Result :=
  .next (service s p 0x15 (fun s c =>
    let n := procX s p 10
    if (fromEnclave c).isSome ∨ ¬ enclValid s n ∨ enclRuns s n then svcRet s p svcFail
    else svcRet (enclDestroy s n) p 0))

end Sys2Proof.Machine
end

