-- ==== Sys2Proof/Machine/Start.lean ====
section
/-! DEFINITION. What every device start does (Table 15.1, R138, R168, R171, R185, R269, R396-R398): settings, the
interleave, the firmware slot, the mode, fills, injection, Firn's page map and the plans. -/

namespace Sys2Proof.Machine

/-! ### Resets (R12, R276, Table 16.3) -/

/-- Registers of the island, and what persistent memory and fuses hold: they outlive a cold reset of the rest. -/
def keptCold (a : Nat) : Bool :=
  match blkOf a with
  | some (.hubId, _, off) => off == 0x8 || off == 0xC
  | some (.serac, _, _) => true
  | some (.power, _, off) => decide (0x310 ≤ off ∧ off < 0x320) || decide (0x400 ≤ off)
  | _ => false

/-- A cold reset of every block outside the island, and with `island` of the island too. -/
def coldReset (s : State) (island : Bool) : State :=
  let p := s.power
  { State.reset with
    pending := s.pending, pins := { s.pins with trig := [], fsync := [] }, out := s.out, free := s.free,
    regs := s.regs.filter (fun e => keptCold e.1 && !(island && (blkOf e.1).any (fun b => b.1 == .serac))),
    serac := if island then {} else s.serac,
    power := { nvm := p.nvm, slots := p.slots, ice := p.ice, ring := p.ring, iceSlot := p.iceSlot } }

/-- Registers that a warm reset of every block outside Serac leaves as they are (R12, R171, R245, R319, R335, R338,
R415; log entry 35). -/
def keptWarm (s : State) (a : Nat) : Bool :=
  match blkOf a with
  | some (.hubId, _, off) => off == 0x8 || off == 0xC
  | some (.sec, _, off) => !(0x28 ≤ off && off < 0x50)
  | some (.rime, u, off) => (off == 0x10 && rdb s (Reg.RIME_WDT_CTL u) 31) || off == 0x28 || off == 0x30 || off == 0x38
  | some (.serac, _, _) => true
  | some (.snow, _, off) => decide (off < 0x40)
  | some (.dctl, _, off) => off == 0x18 || off == 0x20
  | some (.power, _, off) => off == 0x28 || off == 0x30 || decide (0x200 ≤ off)
  | some (.bar0, _, off) => off == 0xA0 || decide (0x1000 ≤ off)
  | _ => false

/-- A warm reset of every block outside Serac: DRAM, the interleave and the ECC mode stay; units out of service stay
out (R276, R277). -/
def warmReset (s : State) : State :=
  let strongNow := (List.range 8).map (fun k => rdf s (Reg.MEM_STATUS k) 5 4)
  let emerg := rdf s Reg.PWR_STATUS 1 0
  let s := { s with
    regs := s.regs.filter (fun e => keptWarm s e.1), latch := [],
    mem := s.mem.filter (fun e => decide (dramBase ≤ e.1 ∧ e.1 < 0x12000000000)),
    poison := s.poison.filter (fun w => decide (dramBase ≤ w * 8 ∧ w * 8 < 0x12000000000)),
    cores := (s.cores.filter (fun e => !e.2.inService)).map (fun e => (e.1, { inService := false })),
    clusters := (s.clusters.filter (fun e => !e.2.inService)).map (fun e => (e.1, { inService := false })),
    dies := [], chans := [], lines := [], credits := [],
    firn := { mis := s.firn.mis },
    snow := { sub := s.snow.sub, slewSub := s.snow.slewSub },
    sec := { s.sec with procs := [] }, reports := [],
    power := { s.power with clkCut := [], pwrCut := [], changing := none, unparking := [] } }
  let s := forUpTo 8 (fun k t => wrf t (Reg.MEM_STATUS k) 5 4 (strongNow.getD k 0)) s
  forUpTo 8 (fun p t => enclLost t p) (wrf s Reg.PWR_STATUS 1 0 emerg)

/-! ### Settings and the interleave (R168, R171, R185, R329, R398) -/

/-- The retirement list of a stack as a mask; an entry whose stack is not local to its die is invalid (R183). -/
def retireMask (s : State) (k : Nat) : Nat :=
  ((List.range 32).filter (fun p => s.power.nvm.retire.any (fun e =>
    e.stack == k && e.pch == p && e.die == k / 2))).foldl (fun t p => t + 2 ^ p) 0

/-- A die's DRAM is undefined: its bytes read as bytes nothing has written (log entry 1). -/
def dramLost (s : State) (d : Nat) : State :=
  let lo := dramBase + d * 0x800000000
  zeroRange s lo (lo + 0x800000000)

/-- The interleave of every die rebuilt without the retired pseudo-channels, in the ECC mode of the settings. Where a
die's list or the mode changes, its DRAM is undefined. A die left with fewer than 32 is not released. `was` gives what
stood before: the mode and the masks. -/
def rebuild (s : State) (was : Nat × List Nat) : State :=
  let strongNew := b2n s.power.nvm.platform.strong
  let masks := (List.range 8).map (retireMask s)
  let s := forUpTo 8 (fun k t =>
    let m := masks.getD k 0
    wrf (wrn (wrn t (Reg.MEM_PCH_RETIRED k) m) (Reg.MEM_PCH_REBUILT k) m) (Reg.MEM_STATUS k) 5 4 strongNew) s
  forUpTo 4 (fun d t =>
    let changed := was.1 ≠ strongNew ∨ was.2.getD (2 * d) 0 ≠ masks.getD (2 * d) 0
      ∨ was.2.getD (2 * d + 1) 0 ≠ masks.getD (2 * d + 1) 0
    let t := if changed then dramLost t d else t
    let n := (members t d).length
    let t := wrf t (Reg.DIE_MEM_STATUS d) 14 8 n
    if n < 32 then detect (setDie t d { getDie t d with inService := false }) .die d .fe 0x6C 0 else t) s

/-- The settings every start loads (R409): a region without a good copy has its defaults and sets COPY_BAD. -/
def loadSettings (s : State) : State :=
  let n := s.power.nvm
  let s := forUpTo 7 (fun r t =>
    if (nvmCopy t r).seq = 0 then hwSetBit t Reg.NVM_STATUS Reg.NVM_EVCNT 3 else t) s
  let s := wr (wrn s Reg.SEC_TENANT n.tenant) Reg.SEC_TENANT_ID n.tenantId
  wrn s Reg.FW_MIN_SVN n.minSvn

/-- The watermark loaded and locked until cold reset (R329). -/
def loadWm (s : State) : State := wrn s Reg.MEM_SECURE_WM (s.power.nvm.wm + 2 ^ 63)

/-- The safety configuration loaded by Serac (R265): cause TASK ends. -/
def seracLoad (s : State) : State :=
  let c := s.power.nvm.safety
  let s := wrn s Reg.SERAC_CFG (c.epochMs + b2n c.periodic * 65536)
  let s := forUpTo 32 (fun n t =>
    let (i, x, l) := match c.tasks[n]? with
      | some e => (e.image, e.timing, e.limits)
      | none => (0, 0, 0)
    wr (wr (wr (wr t (Reg.TASK_IMAGE n) i) (Reg.TASK_TIMING n) x) (Reg.TASK_LIMITS n) l) (Reg.TASK_STATE n) 0) s
  hold (setSerac s { s.serac with tasks := [] }) 2 false

/-! ### The firmware slot (R396, R397, R408) -/

/-- The security version of a slot that hub ROM accepts. -/
def slotSvn (s : State) (k : Nat) : Option Nat :=
  let x := Tab.get ({} : Slot) s.power.slots k
  if x.valid then
    match Config.verifyPackage x.bytes with
    | some v => if s.power.nvm.minSvn ≤ v then some v else none
    | none => none
  else none

/-- Recovery (R397): processor 3 alone runs hub ROM, and entries 0-7 of the physical function's aperture map the
32 MiB at the watermark. -/
def enterRecovery (s : State) : State :=
  let s := { s with
    power := { s.power with boot := .recovery },
    host := { s.host with apts := (List.range 8).foldl (fun t i =>
      Tab.set t (16 * 64 + i) ⟨watermark s + i * 0x400000, true, true⟩) s.host.apts } }
  hold (forUpTo 8 (fun p t => wrb t (Reg.RIME_STATUS p) 0 (p == 3)) s) 0 true

/-- What Icecore and FW_STATUS say of an activation's end. -/
def fwFlag (s : State) (i : Nat) : State := hwSetBit s Reg.FW_STATUS Reg.FW_EVCNT i

/-- Hub ROM boots the TRIAL slot where one is named and has not been tried, else the ACTIVE one, else the other; with
none, or without a device region (Table 15.4), it enters recovery. A trial that was tried and not confirmed, or does not
boot, is reverted. -/
def firmwareBoot (s : State) : State :=
  let n := s.power.nvm
  let want := match n.trial with
    | some t => if n.tried then n.active else t
    | none => n.active
  let valid (k : Nat) : Nat := b2n (Tab.get ({} : Slot) s.power.slots k).valid
  let s := wrf (wrf s Reg.FW_STATUS 2 2 (valid 0)) Reg.FW_STATUS 3 3 (valid 1)
  let slots := if (nvmCopy s 0).seq = 0 then [] else [want, 1 - want]
  match slots.findSome? (fun k => (slotSvn s k).map (fun v => (k, v))) with
  | none => enterRecovery s
  | some (k, v) =>
    let trial := n.trial == some k && !n.tried
    let s := wrf (wrf (wrf s Reg.FW_STATUS 0 0 k) Reg.FW_STATUS 1 1 (b2n trial)) Reg.FW_STATUS 31 16 v
    let s := { s with power := { s.power with boot := .started } }
    let s := forUpTo 8 (fun p t => wr t (Reg.RIME_STATUS p) 1) s
    if n.trial.isNone then s
    else if trial then nvmSave s 0 { n with tried := true }
    else iceEvent (iceAdd (fwFlag (nvmSave s 0 { n with trial := none, tried := false }) 7) 0xB8 32 1) 4 k 0

/-! ### Modes, fills, injection (R15, R19, R20, R174, R269, R399) -/

/-- CCLK's divider code, the DRAM rate and the compute-die target of a mode (Tables 01.2, 00.4, R425). -/
def modeDiv (m : Nat) : Nat := 4 + m
def modeSlow (m : Nat) : Bool := m == 2
def modeTarget (m : Nat) : Nat := [850, 780, 720].getD m 720

/-- An emergency stands (R403). -/
def emergency (s : State) : Bool := decide (rdf s Reg.PWR_STATUS 1 0 ≠ 0)

/-- The mode a start comes up in: START_MODE, or Field while an emergency stands (R404, R405). -/
def modeAtStart (s : State) : Nat := if emergency s then 2 else s.power.nvm.platform.startMode

/-- Clocks, voltages and DRAM of every die in the mode a start comes up in. -/
def modeStart (s : State) : State :=
  let m := modeAtStart s
  let s := wrn s Reg.PWR_MODE (m + s.power.nvm.platform.startMode * 8)
  let s := wrb { s with power := { s.power with changing := none, force := m, unparking := [] } } Reg.PWR_STATUS 5 false
  let s := forUpTo 4 (fun d t =>
    let t := wrf (wrf t (Reg.DIE_CLK_CTL d) 2 0 (modeDiv m)) (Reg.DIE_CLK_STATUS d) 2 0 (modeDiv m)
    setDie t d { getDie t d with
      cdivNext := BitVec.ofNat 3 (modeDiv m), cdivBusy := false, slowDram := modeSlow m, rateNext := modeSlow m,
      avsTarget := modeTarget m, avsNext := none }) s
  forUpTo 24 (fun r t => driftCap t r) s

/-- Every store of the dies in service is filled. -/
def startFills (s : State) : State :=
  forUpTo 4 (fun d t => if (getDie t d).inService then fillBegin t d else t) s

/-- What the injection of row 5 leaves of a block: Serac takes its flags and counts away, and the event counter keeps
them (log entry 36). -/
def injBlock (s : State) (l : Level) (u : Nat) : State :=
  incWrap s (Reg.ERR_EVCNT l u) 32 (match l with
    | .engine => 3
    | .core => 4
    | _ => 5)

/-- The error blocks of one die. -/
def injDie (s : State) (d : Nat) : State :=
  let s := forUpTo 160 (fun i t => injBlock t .engine (160 * d + i)) s
  let s := forUpTo 32 (fun i t => injBlock t .core (32 * d + i)) s
  let s := forUpTo 4 (fun i t => injBlock t .cluster (4 * d + i)) s
  injBlock s .die d

/-- Rows of Table 09.5 injected: each is to report, or to time out (R269). -/
def injectRows (s : State) (rows : List Nat) : State :=
  let s := rows.foldl (fun t b => wrb t Reg.SERAC_INJ_RESULT b true) s
  setSerac s { s.serac with injWait := rows.foldl (fun t b => NatSet.ins b t) s.serac.injWait }

/-- The injection of a device start. -/
def startInject (s : State) (rows : List Nat) : State :=
  let s := injBlock (forUpTo 4 (fun d t => injDie t d) (injectRows s rows)) .package 0
  let ok (p : Nat) : Bool := !s.serac.lost.contains p
  wrb (wrb s Reg.SERAC_STATUS 9 (ok 0)) Reg.SERAC_STATUS 10 (ok 1)

/-! ### Firn (R138) -/

/-- Firmware writes every page-map entry and every sequence entry, then sets ENABLE. The frames of loaded images are
held; the reserves of their model instances start again. -/
def firnStart (s : State) : State :=
  let held := s.rime.images.flatMap (·.frames)
  let init : FirnInit := ⟨watermark s, (List.range 4).map (usable s), held⟩
  let s := { s with firn := { s.firn with
    init := some init, tabs := {}, steps := [], queue := [], busy := none, tc := [] } }
  let s := s.firn.mis.foldl (fun t e => forUpTo 4 (fun d u => fillReserve u e.1 d (declaredOn e.2 d)) t) s
  firnCounts (wrb s Reg.FIRN_CTL 0 true)

/-! ### Starts (Table 15.1) -/

/-- Steps 6-11 of a start whose firmware has booted. -/
def startRun (s : State) (rows : List Nat) : State :=
  let s := startInject (startFills (modeStart s)) rows
  let s := firnStart (seracLoad s)
  iceWrite (fabricApply (displayApply (planApply s)))

/-- A start from its second step on: settings, interleave, firmware, and the rest where firmware has booted. -/
def startFrom (s : State) (rows : List Nat) (was : Nat × List Nat) : State :=
  let s := firmwareBoot (rebuild (loadWm (loadSettings s)) was)
  if s.power.boot = .started then startRun s rows else s

end Sys2Proof.Machine
end

