-- ==== Sys2Proof/Machine/Serac.lean ====
section
/-! DEFINITION. Serac (09): its pairs (R251-R255), twin comparisons and their outcomes (R259-R263), the judgement of
task windows (R267, R268), injections that do not report (R269), rails (R274), die and whole-device restarts (R275,
R276), and units that return to service (R277, R278). -/

namespace Sys2Proof.Machine

/-! ### Restarts (R275, R276) -/

/-- SERAC_LAST_RESTART, the restart order seen by Frost, and the Icecore event. -/
def restartOrder (s : State) (scope d src : Nat) : State :=
  let s := wrn s Reg.SERAC_LAST_RESTART (scope + d * 16 + src * 256 + now32 s * 2 ^ 32)
  iceEvent (frostSerac s 3) 3 d src

/-- Images with SAFETY and their fall-backs keep their place over a whole-device restart. -/
def restartKeeps (s : State) (i : Image) : Bool :=
  !i.loading && (i.safety || s.rime.images.any (fun x => x.safety && x.fallback == i.id))

/-- The minima of a loaded image admitted again. -/
def imageMinima (s : State) (i : Image) : State := i.minima.foldl (fun t x => addMin t x.1 i.drift x.2) s

/-- Everything firmware and the host lose at a whole-device restart: instances are DISABLED, consumed entries are lost,
long operations end with the effects of a cancel, every other image is unloaded (R276, R319). -/
def restartLoses (s : State) : State :=
  let s := s.rime.longs.foldl (fun t o => longUndo t o) (sliceAbandon s)
  let s := { s with rime := { s.rime with
    pend := [], jobs := [], longs := [], logHeld := [], msixPend := [], cut := [], code := [], ctx := [], lastJob := [] } }
  let s := (s.rime.images.filter (fun i => !restartKeeps s i)).foldl releaseImage s
  allFns.foldl (fun t fn => setInst (stopDirty (resetPage (resetFnState t fn) fn) fn) fn 0) s

/-- A whole-device restart is ordered: SAFE_HOLD with cause DEVICE, and a warm reset of every block outside Serac. -/
def deviceRestart (s : State) (src : Nat) : State :=
  if s.serac.devRestart ∨ s.power.boot = .held ∨ s.power.boot = .standby then s
  else
    let s := hold (restartOrder s 2 0 src) 6 true
    let s := bumpEpoch (iceAdd s 0x84 32 1)
    let s := warmReset (restartLoses s)
    let s := wrb s Reg.SERAC_STATUS 0 false
    { s with
      power := { s.power with boot := .started },
      serac := { s.serac with
        devRestart := true, restarting := [], stayOut := [], dieHist := [], mism := [], pend := [], slice := none } }

/-- Jobs with a kernel in flight on a die: the fall-back with reason 3, or FAILED with DETAIL 0xFD (R275). -/
def dieJobs (s : State) (d : Nat) : State :=
  s.rime.jobs.foldl (fun t j0 =>
    match jobOf t j0.serial with
    | none => t
    | some j => match jobImg t j with
      | none => t
      | some i =>
        if j.phase.holds ∧ (imgDies i).contains d then
          if onPrimary j ∧ (fallbackOf t j).isSome then switchJob t j 3 else failJob t j 0xFD
        else t) s

/-- Registers that a warm reset of die `d` leaves as they are: all of the rest, its retirements, ECC mode and clock. -/
def keptDie (d a : Nat) : Bool :=
  match blkOf a with
  | some (.die, u, _) => u != d
  | some (.dctl, u, off) => u / 2 != d || off == 0x18 || off == 0x20
  | some (.cluster, u, _) => u / 4 != d
  | some (.core, u, _) => u / 32 != d
  | _ => true

/-- The channels of a die. -/
def chanDie (key : Nat) : Nat := if key < 2048 then key / 8 / 32 else if key < 4096 then (key - 2048) / 16 / 4 else 4

/-- The cores and clusters of die `d`, their channels and what stands in their stores begin anew; `keep` says which
registers stay. Units out of service stay out. -/
def unitsReset (s : State) (keep : Nat → Bool) (d : Nat) : State :=
  { s with
    regs := s.regs.filter (fun e => keep e.1),
    cores := (s.cores.filter (fun e => dieOfCore e.1 != d || !e.2.inService)).map (fun e =>
      if dieOfCore e.1 = d then (e.1, { inService := false }) else e),
    clusters := (s.clusters.filter (fun e => dieOfCluster e.1 != d || !e.2.inService)).map (fun e =>
      if dieOfCluster e.1 = d then (e.1, { inService := false }) else e),
    chans := s.chans.filter (fun e => chanDie e.1 != d),
    rime := { s.rime with
      code := s.rime.code.filter (fun e => dieOfCore e.1 != d),
      ctx := s.rime.ctx.filter (fun e => (if e.1 < 1024 then dieOfCore e.1 else dieOfCluster (e.1 - 1024)) != d) } }

/-- Warm reset of die `d`: cores, clusters and their channels begin anew; stores are filled. -/
def dieReset (s : State) (d : Nat) : State :=
  let mode (k : Nat) : Nat := rdf s (Reg.MEM_STATUS k) 5 4
  let m0 := mode (2 * d)
  let m1 := mode (2 * d + 1)
  let u := rdf s (Reg.DIE_MEM_STATUS d) 14 8
  let s := unitsReset { s with firn := { s.firn with tc := s.firn.tc.filter (fun e => e.die != d) } } (keptDie d) d
  let s := wrf (wrf s (Reg.MEM_STATUS (2 * d)) 5 4 m0) (Reg.MEM_STATUS (2 * d + 1)) 5 4 m1
  fillBegin (wrf s (Reg.DIE_MEM_STATUS d) 14 8 u) d

/-- A die restart is ordered (Table 09.8): links closed, DRAM in self refresh, jobs ended or switched, a warm reset,
fills and injection; the die controller restarts from ROM. -/
def dieRestart (s : State) (d src : Nat) : State :=
  let hist := (Tab.get [] s.serac.dieHist d).filter (fun t => decide (nowN s < t + 60000000000))
  let s := iceAdd (restartOrder s 1 d src) (0x88 + 4 * d) 32 1
  let s := sliceAbandon s
  let s := setSerac s { s.serac with
    restarting := NatSet.ins d s.serac.restarting,
    dieHist := Tab.set s.serac.dieHist d (hist ++ [nowN s]) }
  let s := headsAlt (unitOut s (.die d)) d
  let s := schedule (dieJobs s d)
  let s := dieReset (setDie s d { getDie s d with linksClosed := true, selfRefresh := true }) d
  let p := 4 + d
  let s := wrb (wrb s (Reg.RIME_STATUS p) 0 false) (Reg.RIME_STATUS p) 1 true
  let s := bumpEpoch (incSat s (Reg.RIME_RESTARTS p) 16 1)
  let s := { s with
    rime := { s.rime with cut := Tab.set s.rime.cut p s.rime.nextId },
    sec := { s.sec with procs := Tab.del s.sec.procs p } }
  injectRows (injDie (notify (seracFlag (enclLost s p) 8) "Serac" "RIME_RESTART" p) d) [2, 3, 4, 5, 9]

/-- A die whose restart is not ordered any more stays out of service until the next device start (Table 09.7). -/
def dieStaysOut (s : State) (d : Nat) : State :=
  let s := unitOut (setSerac s { s.serac with stayOut := NatSet.ins d s.serac.stayOut }) (.die d)
  schedule (dieJobs s d)

/-- A die fault's response: a second die at once brings the whole device down, a third restart within 60 s leaves the
die out. -/
def dieFault (s : State) (d src : Nat) (others : Bool) : State :=
  if s.serac.devRestart ∨ s.serac.stayOut.contains d ∨ s.serac.restarting.contains d then s
  else if others ∨ s.serac.restarting.any (· != d) then deviceRestart s src
  else
    let hist := (Tab.get [] s.serac.dieHist d).filter (fun t => decide (nowN s < t + 60000000000))
    if 2 ≤ hist.length then dieStaysOut s d else dieRestart s d src

/-- SERAC_FAULT_RESPONSE (R274, Table 09.7): Serac-A responds to the oldest event, while a pair is left. -/
def faultResponse (s : State) : State :=
  match s.serac.pend with
  | [] => s
  | e :: es =>
    if 2 ≤ s.serac.lost.length then s
    else
      let s := setSerac s { s.serac with pend := es }
      match e with
      | .die d src => dieFault s d src (es.any (fun x => match x with
          | .die d' _ => d' != d
          | _ => false))
      | .package src => deviceRestart s src
      | .class0 =>
        let s := frostSerac (seracFlag s 7) 5
        if rdb s Reg.DRIFT_STATUS 4 then hold s 3 true else s

def execSeracFaultResponse (s : State) : Result := .next (faultResponse s)

/-- DIE_RESTART_DONE (Table 09.8 step 6): the links open and waiting requests are served; a die whose self-test passed
returns at an epoch. -/
def dieRestartDone (s : State) (die : Nat) (pass : Bool) : State :=
  if s.serac.restarting.contains die then
    let s := setSerac s { s.serac with restarting := NatSet.rem die s.serac.restarting }
    let s := drainHeld (setDie s die { getDie s die with linksClosed := false, selfRefresh := false }) die
    if pass ∧ ¬ s.serac.stayOut.contains die then
      setSerac s { s.serac with passed := s.serac.passed ++ [.die die] }
    else setSerac s { s.serac with stayOut := NatSet.ins die s.serac.stayOut }
  else s

/-- The TRIAL slot is confirmed (R408): ACTIVE, MIN_SVN, ACTIVATED. -/
def confirmTrial (s : State) : State :=
  if rdb s Reg.FW_STATUS 1 ∧ (List.range 8).all (live s) then
    let k := rdf s Reg.FW_STATUS 0 0
    let v := rdf s Reg.FW_STATUS 31 16
    let n := s.power.nvm
    let s := nvmSave (wrb s Reg.FW_STATUS 1 false) 0 { n with active := k, trial := none, tried := false, minSvn := v }
    iceEvent (fwFlag (wrn s Reg.FW_MIN_SVN v) 8) 4 k 0
  else s

/-- A scrub the last power-on or restart cut short starts again, on firmware's own account (R325). -/
def scrubAgain (s : State) : State :=
  if s.power.nvm.tenant = 2 then
    let id := s.rime.nextId
    let s := { s with rime := { s.rime with nextId := id + 1 } }
    setLongs s (s.rime.longs ++ [⟨id, ⟨16, 0, 0⟩, .scrub, 0, false, [], [], false, true⟩])
  else s

/-- Serac supervises the tasks whose images are loaded, and cause DEVICE waits for their good windows (R276). -/
def seracResume (s : State) : State :=
  let s := s.rime.images.foldl (fun t i => taskLoaded t i.id) s
  let wait := (List.range 32).filter (fun n => taskOn s n && (imgOf s (taskImage s n)).isSome)
  let s := setSerac s { s.serac with
    waitGood := wait.map (fun n => (n, if taskRecover s n = 0 then 1 else taskRecover s n)) }
  if wait.isEmpty then hold s 6 false else s

/-- The injections of a device start have reported (step 10 of Table 15.1, step 4 of Table 09.9): READY, unless a
checker did not report. Cause START ends. -/
def startReleased (s : State) : State :=
  let ok := rdf s Reg.SERAC_INJ_RESULT 9 0 = 1023
  let s := wrb (setSerac s { s.serac with injWait := [] }) Reg.SERAC_STATUS 0 (decide ok)
  hold (hold (hold s 1 (decide (¬ ok))) 0 false) 5 false

/-- DEVICE_RESTART_READY (Table 09.9 steps 3-6, R319, R398). -/
def deviceRestartReady (s : State) : State :=
  if ¬ s.serac.devRestart then s
  else
    let s := firmwareBoot (loadSettings s)
    if s.power.boot ≠ .started then setSerac s { s.serac with devRestart := false }
    else
      let s := forUpTo 4 (fun d t =>
        if (members t d).length < 32 then setDie t d { getDie t d with inService := false } else t) s
      let s := startRun s (List.range 10)
      let s := s.rime.images.foldl imageMinima s
      let s := setSerac s { s.serac with devRestart := false, passed := s.serac.out }
      let s := confirmTrial { s with power := { s.power with boot := .ready } }
      let s := scrubAgain (seracResume (startReleased s))
      mbxEvent (logEntry s 3 0 0x0A (BitVec.ofNat 64 (fwEpoch s)) 0) 2

/-! ### The pairs (R251-R255) -/

/-- A pair is lost: FE 0x86, and the survivor requests SAFE_HOLD and orders a whole-device restart. -/
def pairLost (s : State) (p : Nat) : State :=
  if s.serac.lost.contains p then s
  else
    let s := setSerac s { s.serac with lost := NatSet.ins p s.serac.lost, missed := Tab.del s.serac.missed p }
    let s := detect (wrb s Reg.SERAC_STATUS (9 + p) false) .package 0 .fe 0x86 p
    let s := hold s 4 true
    if s.serac.lost.length < 2 then deviceRestart s 0x86 else s

/-- SERAC_HEARTBEAT (R251): four missed in a row lose the pair. -/
def execSeracHeartbeat (pair : Nat) (arrived : Bool) (s : State) : Result :=
  .next (if s.serac.lost.contains pair then s
    else
      let n := if arrived then 0 else Tab.get 0 s.serac.missed pair + 1
      if 4 ≤ n then pairLost s pair
      else setSerac s { s.serac with missed := Tab.set s.serac.missed pair n })

/-- LOCKSTEP_WINDOW (R254). -/
def execLockstepWindow (pair : Nat) (sigLead sigTrail : Word) (s : State) : Result :=
  .next (if sigLead = sigTrail then s else pairLost s pair)

/-- SERAC_INPUT_LATCH (R255): the copies disagree at the first latch and in the three cycles after it. -/
def execSeracInputLatch (pair : Nat) (tries : List (Word × Word)) (s : State) : Result :=
  .next (if 4 ≤ tries.length ∧ (tries.take 4).all (fun t => t.1 != t.2) ∧ ¬ s.serac.lost.contains pair then
    pairLost (detect s .package 0 .fe 0x87 pair) pair
  else s)

/-- SERAC_PAIR_REJOIN (R251): a pair that rejoins while the other is lost does what a surviving pair does. -/
def execSeracPairRejoin (pair : Nat) (s : State) : Result :=
  .next (if s.serac.lost.contains pair then
    let s := setSerac s { s.serac with lost := NatSet.rem pair s.serac.lost }
    let s := wrb s Reg.SERAC_STATUS (9 + pair) true
    if s.serac.lost.isEmpty then hold s 4 false else deviceRestart (hold s 4 true) 0x86
  else s)

/-! ### Twin comparisons (R258-R263) -/

/-- The cores of pair `i` of cluster `c`. -/
def pairCores (c i : Nat) : Nat × Nat := (8 * c + 2 * i, 8 * c + 2 * i + 1)

/-- A mismatch (R260): both cores stop as by ABORT, and firmware ends the kernel on every core it occupies. -/
def mismatch (s : State) (c i kind : Nat) : State :=
  let (a, b) := pairCores c i
  let job := jobOn s a
  let s := coreAbort (coreAbort s a) b
  let s := setClu s c { getClu s c with subs := (getClu s c).subs.filter (fun x => x.core != a && x.core != b) }
  let s := incSat (frostSerac (seracFlag s 1) 2) Reg.SERAC_TWIN_MISMATCH 32 1
  let s := notify (notify s "Serac" "mismatch" (4 * c + i)) "die controller" "mismatch" (4 * c + i)
  let s := setSerac s { s.serac with mism := s.serac.mism ++ [⟨c, i, kind⟩] }
  match job with
  | some j => if j.phase.runs then updJob (endKernel s j 1) j.serial (fun j => { j with phase := .decide }) else s
  | none => s

/-- The oldest submission of a pair and its partner's of the same number. -/
def subPair (s : State) (c i : Nat) : Option (TwinSub × Option TwinSub) :=
  let (a, b) := pairCores c i
  match (getClu s c).subs.find? (fun x => x.core == a || x.core == b) with
  | none => none
  | some x => some (x, (getClu s c).subs.find? (fun y => y.core == twinOf x.core && y.num == x.num))

/-- TWIN_COMPARE (R259): the submissions agree, or the pair mismatches by GAP (2) or VALUE (0). -/
def execTwinCompare (cluster pair : Nat) (s : State) : Result :=
  .next (match subPair s cluster pair with
    | none => s
    | some (x, o) =>
      if x.gap ∨ o.any (·.gap) then mismatch s cluster pair 2
      else match o with
        | none => s
        | some y =>
          if x.sig = y.sig then
            let s := setClu s cluster { getClu s cluster with
              subs := (getClu s cluster).subs.filter (fun z => z != x && z != y) }
            let done (t : State) (n : Nat) : State :=
              if (getCore t n).ckFinal ∧ (getCore t n).ckNum = x.num + 1 then
                updCore t n (fun k => { k with ckAgreed := true }) else t
            done (done s x.core) y.core
          else mismatch s cluster pair 0)

/-- TWIN_ABSENT_TIMEOUT (R259): the partner's submission has not come within 16,384 NCLK cycles. -/
def execTwinAbsentTimeout (cluster pair : Nat) (s : State) : Result :=
  .next (match subPair s cluster pair with
    | some (_, none) => mismatch s cluster pair 1
    | _ => s)

/-- A pair is marked SUSPECT. -/
def pairSuspect (s : State) (c i : Nat) : State := wrb s Reg.SERAC_PAIR_SUSPECT (4 * c + i) true

/-- Table 09.3 for a job whose kernel a mismatch has ended. A row the table does not give (a later mismatch outside a
rerun on a pair that is not SUSPECT) is the late row (log entry 37). -/
def decide0903 (s : State) (m : Mismatch) (j : Job) (i : Image) : State :=
  let suspect := rdb s Reg.SERAC_PAIR_SUSPECT (4 * m.cluster + m.pair)
  if suspect ∨ j.rerunPair = some (m.cluster, m.pair) then switchJob (pairRetire s m.cluster m.pair) j 2
  else if j.rerunPair.isSome then switchJob (pairSuspect s m.cluster m.pair) j 1
  else if ¬ j.hadMismatch ∧ ¬ tooLate s i (nowN s) (wcetRem i j.kernel) j.deadline then
    let j' := { j with rerunPair := some (m.cluster, m.pair), hadMismatch := true }
    startKernel (updJob s j.serial (fun _ => j')) j' i .rerun
  else switchJob (pairSuspect s m.cluster m.pair) { j with hadMismatch := true } 1

/-- MISMATCH_DECISION (R261): the oldest mismatch is decided; one that finds its job decided already changes nothing
more (log entry 37). -/
def execMismatchDecision (s : State) : Result :=
  .next (match s.serac.mism with
    | [] => s
    | m :: ms =>
      if 2 ≤ s.serac.lost.length then s
      else
        let t := setSerac s { s.serac with mism := ms }
        match jobOn t (8 * m.cluster + 2 * m.pair) with
        | none => t
        | some j => match jobImg t j with
          | none => t
          | some i =>
            if j.phase ≠ .decide then t
            else if jobServed t i then schedule (decide0903 t m j i)
            else s)

/-! ### Task windows (R267, R268, R276) -/

/-- Instants of a list in [lo, hi]. -/
def within (l : List Nat) (lo hi : Nat) : Nat := (l.filter (fun t => decide (lo ≤ t) && decide (t ≤ hi))).length

/-- A good window. -/
def windowGood (s : State) (n : Nat) : State :=
  let t := getTask s n
  let s := wrf (setTask s n { t with good := t.good + 1 }) (Reg.TASK_STATE n) 23 16 0
  let s := if rdb s (Reg.TASK_STATE n) 27 ∧ taskRecover s n ≠ 0 ∧ taskRecover s n ≤ t.good + 1 then
      let s := wrb s (Reg.TASK_STATE n) 27 false
      if (List.range 32).any (fun k => rdb s (Reg.TASK_STATE k) 27) then s else hold s 2 false
    else s
  match Tab.find s.serac.waitGood n with
  | none => s
  | some k =>
    let w := if k ≤ 1 then Tab.del s.serac.waitGood n else Tab.set s.serac.waitGood n (k - 1)
    let s := setSerac s { s.serac with waitGood := w }
    if w.isEmpty ∧ ¬ s.serac.devRestart then hold s 6 false else s

/-- A missed window: `rel` releases in its tolerance, `comp` completions in its budget. -/
def windowMissed (s : State) (n rel comp : Nat) : State :=
  let s := if rel = 1 then s else taskFlag s n 24
  let s := if comp = 0 then taskFlag s n 25 else if comp = 1 then s else taskFlag s n 26
  let misses := satAdd 8 (rdf s (Reg.TASK_STATE n) 23 16) 1
  let s := wrf s (Reg.TASK_STATE n) 23 16 misses
  let s := wrf s (Reg.TASK_STATE n) 63 32 (satAdd 32 (rdf s (Reg.TASK_STATE n) 63 32) 1)
  let s := frostSerac (seracFlag s 3) 4
  let s := setTask s n { getTask s n with good := 0 }
  let s := if (Tab.find s.serac.waitGood n).isSome then
      setSerac s { s.serac with waitGood := Tab.set s.serac.waitGood n (if taskRecover s n = 0 then 1 else taskRecover s n) }
    else s
  if taskMissLimit s n ≤ misses then hold (wrb s (Reg.TASK_STATE n) 27 true) 2 true else s

/-- TASK_WINDOW_JUDGE (R267): at W_k + BUDGET. -/
def execTaskWindowJudge (task : Nat) (s : State) : Result :=
  .next (let t := getTask s task
    let w := winStart s task t.win
    if taskOn s task ∧ t.live ∧ w + taskBudget s task * 1000 ≤ nowN s ∧ s.serac.lost.length < 2 then
      let rel := within t.releases w (w + taskRelTol s task * 1000)
      let comp := within t.completions w (w + taskBudget s task * 1000)
      let next := winStart s task (t.win + 1)
      let s := setTask s task { t with
        win := t.win + 1, releases := t.releases.filter (fun x => decide (next ≤ x)),
        completions := t.completions.filter (fun x => decide (next ≤ x)) }
      if rel = 1 ∧ comp = 1 then windowGood s task else windowMissed s task rel comp
    else s)

/-- SAFETY_WINDOW_OPEN (R272): at W_k the running slice is abandoned. -/
def execSafetyWindowOpen (task : Nat) (s : State) : Result :=
  .next (if taskOn s task ∧ (getTask s task).live ∧ taskOffset s task * 1000 ≤ nowN s then sliceAbandon s else s)

/-! ### Injection and rails (R269, R274) -/

/-- INJECTION_TIMEOUT (R269): a checker has not reported. At a device start no die is released; at a die restart the
die stays out; dies that a mode change unparks stay parked (R400). -/
def execInjectionTimeout (bit : Nat) (s : State) : Result :=
  .next (if s.serac.injWait.contains bit then
    let s := setSerac s { s.serac with injWait := NatSet.rem bit s.serac.injWait }
    let s := seracFlag (wrb s Reg.SERAC_INJ_RESULT bit false) 6
    if s.power.boot ≠ .ready then
      forUpTo 4 (fun d t => setDie t d { getDie t d with inService := false }) (hold s 1 true)
    else if ¬ s.serac.restarting.isEmpty then
      setSerac s { s.serac with stayOut := s.serac.restarting.foldl (fun t d => NatSet.ins d t) s.serac.stayOut }
    else if ¬ s.power.unparking.isEmpty then
      hwSetBit { s with power := { s.power with unparking := [] } } Reg.PWR_STATUS Reg.PWR_EVCNT 4
    else s
  else s)

/-- The recommended range of a rail, ±3 % of nominal, over both targets while a change is in progress (R424, R425): is
`mv` outside it? -/
def railOut (s : State) (r mv : Nat) : Bool :=
  let a := railNominal s r
  let b := if r < 4 then (getDie s r).avsNext.getD a else a
  decide (mv * 100 < (if a < b then a else b) * 97) || decide ((if a < b then b else a) * 103 < mv * 100)

/-- RAIL_SAMPLE (R274): the fourth sample in a row out of range is a breach. -/
def execRailSample (rail mv : Nat) (s : State) : Result :=
  .next (if s.power.boot = .held ∨ s.power.boot = .standby then s
    else
      let n := if railOut s rail mv then Tab.get 0 s.serac.railCnt rail + 1 else 0
      let s := setSerac s { s.serac with railCnt := Tab.set s.serac.railCnt rail (if 4 < n then 4 else n) }
      if n = 4 then
        if rail < 4 then detect s .die rail .fe 0x6B 0 else detect s .package 0 .fe 0x89 rail
      else s)

/-! ### Returning to service (R277, R278) -/

/-- The clusters a unit's return brings back. -/
def unitClusters : ServUnit → List Nat
  | .core _ => []
  | .pair _ _ => []
  | .cluster c => [c]
  | .die d => (List.range 4).map (fun i => 4 * d + i)

/-- The cores of a unit. -/
def unitCores : ServUnit → List Nat
  | .core n => [n]
  | .pair c i => [8 * c + 2 * i, 8 * c + 2 * i + 1]
  | .cluster c => (List.range 8).map (fun k => 8 * c + k)
  | .die d => (List.range 32).map (fun k => 32 * d + k)

/-- The die of a unit. -/
def unitDie : ServUnit → Nat
  | .core n => dieOfCore n
  | .pair c _ => dieOfCluster c
  | .cluster c => dieOfCluster c
  | .die d => d

/-- A unit's service flag set. -/
def unitIn (s : State) (u : ServUnit) : State :=
  match u with
  | .core n => updCore s n (fun c => { c with inService := true })
  | .pair c i => (unitCores (.pair c i)).foldl (fun t n => updCore t n (fun c => { c with inService := true })) s
  | .cluster c => setClu s c { getClu s c with inService := true }
  | .die d => setDie s d { getDie s d with inService := true }

/-- The checkers of a returning unit report (rows 2-5 of Table 09.5, and 9 for a die). -/
def injPassed (s : State) (u : ServUnit) : Bool :=
  (match u with
    | .die _ => [2, 3, 4, 5, 9]
    | _ => [2, 3, 4, 5]).all (fun b => rdb s Reg.SERAC_INJ_RESULT b)

/-- The minima that firmware writes again for some clusters: resource, class, units. -/
def returnMinima (s : State) (cs : List Nat) : List (Nat × Nat × Nat) :=
  s.rime.images.flatMap (fun i => (i.minima.filter (fun x => cs.any (fun c => x.1 == 8 + c))).map (fun x =>
    (x.1, i.drift, x.2)))

/-- One unit returns (R278), or stays out where its images' minima are not admitted. -/
def unitReturn (s : State) (u : ServUnit) : State :=
  let cs := unitClusters u
  let ns := unitCores u
  let t := unitIn { s with firn := { s.firn with tc := s.firn.tc.filter (fun e => e.die != unitDie u) } } u
  let t := cs.foldl (fun t c => driftCap t (8 + c)) t
  let (t, ok) := (returnMinima t cs).foldl (fun (acc : State × Bool) x =>
    if acc.2 && driftAdmits acc.1 x.1 x.2.1 x.2.2 then (addMin acc.1 x.1 x.2.1 x.2.2, true) else (acc.1, false)) (t, true)
  if ¬ ok then s
  else
    let t := { t with rime := { t.rime with
      code := t.rime.code.filter (fun e => !ns.contains e.1),
      ctx := t.rime.ctx.filter (fun e => !ns.contains e.1 && !(cs.map (· + 1024)).contains e.1) } }
    let t := match u with
      | .pair c i =>
        let t := ns.foldl (fun t n => wrb t (Reg.CORE_CTL n) 2 true) t
        let t := wrb (wrb t Reg.SERAC_PAIR_RETIRED (4 * c + i) false) Reg.SERAC_PAIR_SUSPECT (4 * c + i) false
        iceEvent t 5 (4 * c + i) 0
      | _ => t
    setSerac t { t.serac with
      out := t.serac.out.filter (· != u), passed := t.serac.passed.filter (· != u) }

/-- May a unit return at this epoch (R277)? -/
def mayReturn (s : State) (u : ServUnit) : Bool :=
  s.serac.passed.contains u && injPassed s u && s.serac.restarting.isEmpty && !s.serac.devRestart
    && s.firn.busy.isNone && !s.serac.stayOut.contains (unitDie u)

/-- SCHED_EPOCH (R277): firmware takes a scheduling epoch. -/
def execSchedEpoch (s : State) : Result :=
  .next (if serving s 0 then
    schedule (s.serac.out.foldl (fun t u => if mayReturn t u then unitReturn t u else t) s)
  else s)

end Sys2Proof.Machine
end

