-- ==== Sys2Proof/Machine/Reports.lean ====
section
/-! DEFINITION. Reports of errors and what they lead to (R31-R33, Tables 01.9 and 01.10), injection by software (R435),
clock supervision (R16, R17), and the package faults that bring the device down at once (R405, Table 01.9). -/

namespace Sys2Proof.Machine

/-! ### Containment (Table 01.9) -/

/-- Firmware ends every kernel in flight that `uses` picks, and its job fails with DETAIL = SOURCE (R232); a twinned
job whose pair retires is switched with reason 2 instead. -/
def endJobs (s : State) (uses : Job → Image → Bool) (src : Nat) (retired : Bool) : State :=
  schedule (s.rime.jobs.foldl (fun t j0 =>
    match jobOf t j0.serial with
    | none => t
    | some j => match jobImg t j with
      | none => t
      | some i =>
        if j.phase.holds ∧ jobServed t i ∧ uses j i then
          if retired ∧ i.twin ∧ (fallbackOf t j).isSome then switchJob t j 2 else failJob t j src
        else t) s)

/-- Does the job's kernel occupy core `n`? -/
def usesCore (s : State) (n : Nat) (j : Job) (i : Image) : Bool :=
  i.cores.contains n && ((getCore s n).job == some j.serial)

/-- The party a unit's reports go to (R31). -/
def reportParty (l : Level) (u : Nat) : String × Nat :=
  match dieOfUnit l u with
  | some d => ("die controller", d)
  | none => ("service processor", 0)

/-- A UC or FE reaches Serac and the party of its level. -/
def tell (s : State) (l : Level) (u : Nat) (cls : ErrClass) (src : Nat) : State :=
  let what := if cls = .fe then "FE" else "UC"
  let (who, d) := reportParty l u
  frostSerac (notify (notify s "Serac" what src) who what (d * 256 + src)) (if cls = .fe then 1 else 0)

/-- A UC contained at its level (Table 01.9). The narrower containments of Table 01.10 took place where the error was
detected. -/
def contain (s : State) (l : Level) (u src : Nat) : State :=
  match l with
  | .engine => endJobs s (usesCore s (u / 5)) src false
  | .core => endJobs s (usesCore s u) src false
  | .cluster => endJobs s (fun _ i => i.home.contains u) src false
  | .die => endJobs s (fun _ i => (imgDies i).contains u) src false
  | .package => s

/-! ### Escalation (R32) -/

/-- An error recorded at the parent with ESC_IN, ESCALATED and CHILD, and told of there. -/
def passUp (s : State) (l : Level) (u : Nat) (cls : ErrClass) (src addr : Nat) : State :=
  match parentOf l u with
  | some (pl, pu, child) => tell (errRecord s pl pu cls src addr true child false) pl pu cls src
  | none => s

/-- An FE at a core: UC at the cluster, the core leaves service; a pair that a twinned image holds retires. -/
def coreFe (s : State) (n src addr : Nat) : State :=
  let s := passUp s .core n .uc src addr
  let twin := s.rime.images.any (fun i => i.twin && i.cores.contains n)
  let s := endJobs s (usesCore s n) src twin
  if twin then pairRetire s (n / 8) (n % 8 / 2) else unitOut s (.core n)

/-- What an FE becomes at the level above (Table 01.9). A die with too few pseudo-channels is not restarted (0x6C); a
lost Serac pair has ordered its restart itself (0x86, 0x87). -/
def escalate (s : State) (l : Level) (u src addr : Nat) : State :=
  match l with
  | .engine => coreFe (passUp s .engine u .fe src addr) (u / 5) src addr
  | .core => coreFe s u src addr
  | .cluster =>
    unitOut (endJobs (passUp s .cluster u .uc src addr) (fun _ i => i.home.contains u) src false) (.cluster u)
  | .die =>
    let s := passUp s .die u .uc src addr
    if src = 0x6C then s else setSerac s { s.serac with pend := s.serac.pend ++ [.die u src] }
  | .package =>
    let s := boundaryUndo s
    if src = 0x86 ∨ src = 0x87 then s else setSerac s { s.serac with pend := s.serac.pend ++ [.package src] }

/-- One report delivered: an injected error is neither contained nor passed up (R435). -/
def deliver (s : State) (r : Report) : State :=
  let s := tell s r.lvl r.unit r.cls r.src
  if r.inj then s
  else match r.cls with
    | .uc => contain s r.lvl r.unit r.src
    | .fe => escalate s r.lvl r.unit r.src r.addr
    | _ => s

/-- ERROR_REPORT (R31): the oldest report is delivered. -/
def execErrorReport (s : State) : Result :=
  .next (match s.reports with
    | [] => s
    | r :: rs => deliver { s with reports := rs } r)

/-! ### Injection (R435) -/

/-- Who may write an ERR_INJECT: Serac, and the secure world of the controller of the unit's die (Table 01.6). -/
def mayInject (who : Requester) (l : Level) (u : Nat) : Bool :=
  match dieOfUnit l u with
  | some d => decide (who = .serac) || isSecRime (4 + d) who
  | none => decide (who = .serac)

/-- A write of ERR_INJECT. -/
def errInject (s : State) (who : Requester) (l : Level) (u : Nat) (v : Word) : State :=
  match clsOfCode (fld v 2 0) with
  | some c => if mayInject who l u ∧ sourceValid l (fld v 11 4) c then inject s l u c (fld v 11 4) else s
  | none => s

def execErrInject (who : Requester) (lvl : Level) (unit : Nat) (val : BitVec 32) (s : State) : Result :=
  .next (errInject s who lvl unit (val.zeroExtend 64))

/-! ### Package faults that restart the device at once (R32, R405) -/

/-- A package FE, its report, and Serac's response while a pair is left. -/
def packageDown (s : State) (src addr : Nat) : State :=
  let s := tell (boundaryUndo (errRecord s .package 0 .fe src addr false 0 false)) .package 0 .fe src
  if s.serac.lost.length < 2 then deviceRestart s src
  else setSerac s { s.serac with pend := s.serac.pend ++ [.package src] }

/-- DIE_LINK_FAILURE: a die link fails beyond its detour. -/
def execDieLinkFailure (s : State) : Result := .next (packageDown s 0x83 0)

/-- JUNCTION_LIMIT (R405): a junction at or above 125 °C. -/
def execJunctionLimit (die : Nat) (tj : Celsius10) (s : State) : Result :=
  .next (if 1250 ≤ tj ∧ s.power.boot ≠ .held ∧ s.power.boot ≠ .standby then
    packageDown (wrf s Reg.PWR_TJ (12 * die + 11) (12 * die) (ofSigned 12 tj)) 0x8A die
  else s)

/-! ### Clocks (R16, R17) -/

/-- ROOT_PLL_LOCK: the clocks derived from the root PLL start. -/
def execRootPllLock (s : State) : Result :=
  .next (if s.power.boot = .held ∨ s.power.boot = .standby then s
    else { s with clk := { s.clk with locked := true, wasLocked := true } })

/-- ROOT_PLL_LOCK_LOSS: package FE 0x81. -/
def execRootPllLockLoss (s : State) : Result :=
  .next (if s.clk.locked then
    detect { s with clk := { s.clk with locked := false } } .package 0 .fe 0x81 0
  else s)

/-- Does a count deviate from its nominal by more than 1 %? -/
def offOne (count nominal : Nat) : Bool := decide (count * 100 < nominal * 99) || decide (nominal * 101 < count * 100)

/-- CLOCK_MONITOR_WINDOW (R17): over 32 µs, PCLK of 250 MHz counts 8,000 cycles and NCLK of 1 GHz 32,000. -/
def execClockMonitorWindow (pclk nclk : Nat) (s : State) : Result :=
  .next (if s.clk.wasLocked ∧ (offOne pclk 8000 ∨ offOne nclk 32000) then detect s .package 0 .fe 0x82 0 else s)

/-- SERAC_CLOCK_CHECK (R17, R274): the hub's count of Serac's clock, 25,600 cycles in 32 µs, reported to Serac. -/
def execSeracClockCheck (count : Nat) (s : State) : Result :=
  .next (if s.clk.wasLocked ∧ offOne count 25600 then
    detect (notify s "Serac" "clock deviation" count) .package 0 .fe 0x88 0
  else s)

end Sys2Proof.Machine
end

