-- ==== Sys2Proof/Machine/Settings.lean ====
section
/-! DEFINITION. Settings regions written and read through the mailbox (R409-R412, Table 15.3): the header, the entries
of each region as typed fields with their ranges, NVM_STORE and NVM_READ. The numbers that tell the tables of a region
apart are the model's (log entry 20). -/

namespace Sys2Proof.Machine

/-! ### Entries of each region (Table 15.4) -/

/-- Bits of a mask, as numbers. -/
def maskBits (n m : Nat) : List Nat := (List.range n).filter (fun i => Nat.testBit m i)

/-- Pairs of a flat list. -/
def pairsOf : List Nat → List (Nat × Nat)
  | a :: b :: t => (a, b) :: pairsOf t
  | _ => []

/-- The platform region. -/
def platformOf (es : List (Nat × List Nat)) : Option Platform :=
  match es with
  | [(0, [ecc, mode, idle, hi, pwr, lim])] =>
    if ecc ≤ 1 ∧ mode ≤ 2 ∧ 90 ≤ hi ∧ hi ≤ 110 ∧ 100 ≤ pwr ∧ pwr ≤ 560 ∧ 1 ≤ lim ∧ lim ≤ 86400 then
      some ⟨ecc == 1, mode, idle, hi, pwr, lim⟩
    else none
  | _ => none

/-- A task entry in range (Table 09.11). -/
def taskOk (t : TaskCfg) : Bool :=
  let p := fld t.timing 31 0
  decide (1 ≤ p) && decide (p ≤ 2000000) && decide (fld t.timing 63 32 < p) && decide (1 ≤ fld t.limits 20 0)
  && decide (fld t.limits 20 0 ≤ p) && decide (fld t.limits 41 21 ≤ fld t.limits 20 0)
  && decide (1 ≤ fld t.limits 49 42) && decide (fld t.limits 63 59 = 0)

/-- The safety region: SCHED_EPOCH_MS with PERIODIC, and task entries 0-31 in order. -/
def safetyOf (es : List (Nat × List Nat)) : Option SafetyCfg :=
  match es with
  | (0, [ms, per]) :: ts =>
    let tasks := ts.filterMap (fun e => match e with
      | (1, [i, t, l]) => some (⟨BitVec.ofNat 64 i, BitVec.ofNat 64 t, BitVec.ofNat 64 l⟩ : TaskCfg)
      | _ => none)
    if 10 ≤ ms ∧ ms ≤ 1000 ∧ per ≤ 1 ∧ tasks.length = ts.length ∧ tasks.length ≤ 32 ∧ tasks.all taskOk then
      some ⟨ms, per == 1, tasks⟩
    else none
  | _ => none

/-- The fabric plan (R287). -/
def fabricOf (es : List (Nat × List Nat)) : Option FabricPlan :=
  match es with
  | [] => some {}
  | [(0, x :: y :: z :: wraps :: el :: key :: anchor)] =>
    if 1 ≤ x ∧ x ≤ 16 ∧ 1 ≤ y ∧ y ≤ 8 ∧ 1 ≤ z ∧ z ≤ 8 ∧ wraps < 8 ∧ el ≤ 1 ∧ key < 32 ∧ anchor.length ≤ 1 then
      some ⟨true, x, y, z, Nat.testBit wraps 0, Nat.testBit wraps 1, Nat.testBit wraps 2, el == 1,
        anchor.head?.map (BitVec.ofNat 64), key⟩
    else none
  | _ => none

/-- A ring of buffers of a plan entry. -/
def ringCfg (base pitch count owner drift : Nat) : RingSt := ⟨base, pitch, count, 0, BitVec.ofNat 64 owner, drift⟩

/-- An entry of the stream, time and gateway plan (Tables 13.1-13.9). -/
def planEntOf (e : Nat × List Nat) : Option PlanEnt :=
  match e with
  | (0, [k, dt, iw, ih, cx, cy, cw, ch, sc, ow, oh, fmt, img, base, pitch, count, row, plane, dr]) =>
    some (.stream k ⟨dt, iw, ih, cx, cy, cw, ch, sc, ow, oh, fmt == 1, BitVec.ofNat 64 img, base, pitch, count, row,
      plane, dr⟩)
  | (1, [fs, k, cfg, sec]) => some (.trig (fs == 1) k (BitVec.ofNat 32 cfg) (sec == 1))
  | (2, [u, p, w, per, ts, fs, sec]) =>
    some (.compare u p w (per == 1) (maskBits 16 ts) (maskBits 16 fs) (sec == 1))
  | (3, [c, edge, sec]) => some (.capture c edge (sec == 1))
  | (4, [q, b, p, c, o, d]) => some (.rxRing q (ringCfg b p c o d))
  | (5, [q, b, p, c, o, d]) => some (.txRing q (ringCfg b p c o d))
  | (6, n :: b :: p :: c :: o :: d :: b' :: p' :: c' :: o' :: d' :: ho :: fs) =>
    some (.canRing n (ringCfg b p c o d) (ringCfg b' p' c' o' d') (pairsOf fs) (ho == 1))
  | (7, port :: base :: cycle :: es) => some (.gate port ⟨pairsOf es, BitVec.ofNat 64 base, cycle, 0, 0⟩)
  | (8, [v, ps]) => some (.vlan v (maskBits 13 ps))
  | (9, [i, g, n]) => some (.filter i g n)
  | (10, [i, h]) => some (.frer i h)
  | _ => none

/-- The units a plan entry names exist. -/
def planIn : PlanEnt → Bool
  | .stream k _ => decide (k < 128)
  | .trig _ k _ _ => decide (k < 16)
  | .compare u _ _ _ _ _ _ => decide (u < 12)
  | .capture c e _ => decide (c < 8) && decide (e < 4)
  | .rxRing q r => decide (q < 8) && decide (2 ≤ r.count) && decide (r.count ≤ 4096)
  | .txRing q r => decide (q < 8) && decide (2 ≤ r.count) && decide (r.count ≤ 4096)
  | .canRing n _ _ _ _ => decide (n < 8)
  | .gate p _ => decide (p < 13)
  | .vlan v _ => decide (v < 4096)
  | _ => true

/-- The stream, time and gateway plan. -/
def streamPlanOf (es : List (Nat × List Nat)) : Option (List PlanEnt) :=
  let ps := es.filterMap planEntOf
  if ps.length = es.length ∧ ps.all (fun e => planIn e && !planBad e) then some ps else none

/-- A head of the display plan. -/
def headOf : List Nat → Option HeadCfg
  | [en, b, a, p, w, h] => some ⟨en == 1, b, a, p, w, h⟩
  | _ => none

/-- The display plan (Table 14.1): its owners and rings, then windows and heads. -/
def displayOf (es : List (Nat × List Nat)) : Option (Option DispPlan) :=
  match es with
  | [] => some none
  | (0, [ow, mo, v, mv, pb, pn, mb, mn, eb, en, fb, fn, dr]) :: rest =>
    let wins := rest.filterMap (fun e => match e with
      | (1, [b, n, w]) => some (⟨b, n, w == 1⟩ : DispWin)
      | _ => none)
    let heads := rest.filterMap (fun e => match e with
      | (2, fs) => headOf fs
      | _ => none)
    let ring (n : Nat) : Bool := decide (4 ≤ n) && decide (n ≤ 12)
    if wins.length + heads.length = rest.length ∧ wins.length ≤ 8 ∧ heads.length ≤ 4 ∧ ow ≤ 16 ∧ mo ≤ 16
        ∧ ring pn ∧ ring mn ∧ ring en ∧ ring fn ∧ 1 ≤ dr ∧ dr ≤ 7 then
      some (some ⟨ow, mo, v, mv, wins, (pb, pn), (mb, mn), (eb, en), (fb, fn), dr, heads⟩)
    else none
  | _ => none

/-! ### NVM_STORE (R410, R411) -/

/-- The header of a region's content: MAGIC, region, version 1, entry count, 32 bits each (log entry 38). -/
def headerOk (region : Nat) (bs : List Byte) (count : Nat) : Bool :=
  let w (i : Nat) : Nat := ofBytesLE ((bs.drop (4 * i)).take 4)
  decide (16 ≤ bs.length) && w 0 == 0x47534E49 && w 1 == region && w 2 == 1 && w 3 == count

/-- The settings with a region's content in place, nothing where a field is out of range. -/
def regionPut (n : NvmSt) (region : Nat) (bs : List Byte) : Option NvmSt :=
  match Config.regionEntries region bs with
  | none => none
  | some es =>
    if ¬ headerOk region bs es.length then none
    else match region with
      | 2 => (platformOf es).map (fun x => { n with platform := x })
      | 3 => (safetyOf es).map (fun x => { n with safety := x })
      | 4 => (fabricOf es).map (fun x => { n with fabric := x })
      | 5 => (streamPlanOf es).map (fun x => { n with stream := x })
      | 6 => (displayOf es).map (fun x => { n with display := x })
      | _ => none

/-- Room for content in one copy of a region: its sectors without the 16-byte trailer. -/
def regionRoom (r : Nat) : Nat := (regionSectors r).2 / 2 * 65536 - 16

/-- NVM_STORE's answer: content from non-secure DRAM, stored as the region's new copy. -/
def nvmStore (s : State) (region src len : Nat) : Nat × List Word × State :=
  if region < 2 ∨ 6 < region ∨ regionRoom region < len ∨ src < watermark s ∨ src < dramBase
      ∨ 0x12000000000 < src + len then (0x02, [], s)
  else
    let (bs, s) := busReadBytes s (fwWho 3) fwLabel src len
    match regionPut s.power.nvm region (bs.map (·.1)) with
    | none => (0x02, [], s)
    | some n =>
      if bs.any (·.2) then (0x02, [], s)
      else if regionWorn s region then (0x06, [], hwSetBit s Reg.NVM_STATUS Reg.NVM_EVCNT 2)
      else (0x00, [], hwSetBit (nvmProgram (setNvm s n) region (bs.map (·.1))) Reg.NVM_STATUS Reg.NVM_EVCNT 1)

/-- NVM_STORE (R411, R412). -/
def execNvmStore (m : Mbx) (region src len : Nat) (s : State) : Result :=
  .next (mbxServe s m 0x22 [BitVec.ofNat 64 region, BitVec.ofNat 64 src, BitVec.ofNat 64 len]
    (fun s => nvmStore s region src len))

/-- NVM_READ (Table 15.3): the copy in use to DRAM. -/
def execNvmRead (m : Mbx) (region dest : Nat) (s : State) : Result :=
  .next (mbxServe s m 0x23 [BitVec.ofNat 64 region, BitVec.ofNat 64 dest] (fun s =>
    if 6 < region then (0x02, [], s)
    else
      let bs := (nvmCopy s region).bytes
      (0x00, [], busWriteBytes (fwWho 3) fwLabel (bs.length + 8) s dest (bs.map (fun b => (b, false))))))

end Sys2Proof.Machine
end

