-- ==== Sys2Proof/Machine/Power.lean ====
section
/-! DEFINITION. Starts, power modes, emergencies and firmware activation (15): the steps of a mode change (R399, R400,
Table 15.2) with the divider, rate and voltage changes they order (R18-R21, R425), Idle (R401), Standby (R402),
emergencies (R403, R404), activations (R407) and recovery (R397). -/

namespace Sys2Proof.Machine

/-! ### Parts of a mode change (R18-R21, R425, Table 15.2) -/

/-- A write of DIE_CLK_CTL.CDIV: CCLK is gated until it restarts at the new divider; other values are reserved. -/
def cdivSet (s : State) (d c : Nat) : State :=
  if 4 ≤ c ∧ c ≤ 6 then
    let s := wrf s (Reg.DIE_CLK_CTL d) 2 0 c
    setDie s d { getDie s d with cdivNext := BitVec.ofNat 3 c, cdivBusy := true }
  else s

/-- The divider every die is to have: the new mode's, or /6 while the device throttles (R404). -/
def clkTarget (s : State) (m : Nat) : Nat := if rdb s Reg.PWR_STATUS 5 ∧ emergency s then 6 else modeDiv m

def clkDone (s : State) (c : Nat) : Bool :=
  (List.range 4).all (fun d => cdivAct s d == c && !(getDie s d).cdivBusy)

/-- CCLK is set on each die, die 0 first. -/
def clkStep (s : State) (c : Nat) : State :=
  forUpTo 4 (fun d t => if rdf t (Reg.DIE_CLK_CTL d) 2 0 = c then t else cdivSet t d c) s

def voltDone (s : State) (m : Nat) : Bool :=
  (List.range 4).all (fun d => (getDie s d).avsTarget == modeTarget m && (getDie s d).avsNext.isNone)

/-- The die controllers command the mode's target of their regulators (R425). -/
def voltStep (s : State) (m : Nat) : State :=
  forUpTo 4 (fun d t =>
    let x := getDie t d
    if x.avsNext = some (modeTarget m) ∨ (x.avsNext = none ∧ x.avsTarget = modeTarget m) then t
    else notify (setDie t d { x with avsNext := some (modeTarget m) }) "regulator" "target" (d * 65536 + modeTarget m)) s

/-- Do the stacks of die `d` retrain? -/
def trains (s : State) (d : Nat) : Bool := rdb s (Reg.MEM_STATUS (2 * d)) 3

def trainDone (s : State) (slow : Bool) : Bool :=
  (List.range 4).all (fun d => (getDie s d).rateNext == slow && !trains s d)

/-- DRAM retrains at a rate, one die at a time: both stacks of the next die begin (R20). -/
def trainStep (s : State) (slow : Bool) : State :=
  if (List.range 4).any (trains s) then s
  else match (List.range 4).find? (fun d => (getDie s d).rateNext != slow) with
    | some d =>
      setDie (wrb (wrb s (Reg.MEM_STATUS (2 * d)) 3 true) (Reg.MEM_STATUS (2 * d + 1)) 3 true) d
        { getDie s d with rateNext := slow }
    | none => s

/-- Drift recomputes its minima for a DRAM rate (R212). -/
def driftRate (s : State) (slow : Bool) : State :=
  let s := forUpTo 4 (fun d t => setDie t d { getDie t d with slowDram := slow }) s
  forUpTo 8 (fun r t => driftCap t r) s

/-- Registers that a die keeps while its clusters are power-gated. -/
def keptClu (d a : Nat) : Bool :=
  match blkOf a with
  | some (.cluster, u, _) => u / 4 != d
  | some (.core, u, _) => u / 32 != d
  | _ => true

/-- A die is parked (R21): CCLK stops, its clusters lose their power and what they hold, and their minima go (R206). -/
def parkDie (s : State) (d : Nat) : State :=
  let s := fillBegin (wrb (unitsReset s (keptClu d) d) Reg.PWR_MODE (6 + d) true) d
  forUpTo 4 (fun i t => cluDrift t (4 * d + i)) s

/-- A die is unparked: its stores are filled and its checkers have passed injection. -/
def unparkDie (s : State) (d : Nat) : State := driftDie (wrb s Reg.PWR_MODE (6 + d) false) d

/-- Does the die hold a home cluster of a loaded image (R399)? -/
def homeDie (s : State) (d : Nat) : Bool := s.rime.images.any (fun i => (imgDies i).contains d)

/-- Is the die to be parked in mode `m`? Only in Field, and never while an emergency stands (R399, R404). -/
def parkWanted (s : State) (m d : Nat) : Bool := m == 2 && !emergency s && rdb s Reg.PWR_MODE (10 + d)

/-- A park that may take effect: not of a claimed die, whose park stays pending (R338). -/
def parkDue (s : State) (m d : Nat) : Bool :=
  parkWanted s m d && !parked s d && !rdb s Reg.SEC_CLAIM d && !homeDie s d

def parkStep (s : State) (m : Nat) : State := forUpTo 4 (fun d t => if parkDue t m d then parkDie t d else t) s

/-! ### The steps in order (R400) -/

/-- Everything before the park and unpark steps has ended. -/
def ratesDone (s : State) (m : Nat) : Bool := clkDone s (clkTarget s m) && voltDone s m && trainDone s (modeSlow m)

/-- The next steps of a change to a lower mode. -/
def lowerStep (s : State) (m : Nat) : State :=
  let s := if modeSlow m then driftRate s true else s
  if ¬ clkDone s (clkTarget s m) then clkStep s (clkTarget s m)
  else if ¬ voltDone s m then voltStep s m
  else if ¬ trainDone s (modeSlow m) then trainStep s (modeSlow m)
  else parkStep s m

/-- The next steps of a change to a higher mode. The dies to unpark wait for their fills. -/
def raiseStep (s : State) (m : Nat) : State :=
  if ¬ voltDone s m then voltStep s m
  else if ¬ clkDone s (clkTarget s m) then clkStep s (clkTarget s m)
  else if ¬ trainDone s (modeSlow m) then trainStep s (modeSlow m)
  else driftRate s (modeSlow m)

/-- A mode change goes on. -/
def modeNext (s : State) : State :=
  match s.power.changing with
  | none => s
  | some (old, new) => if old ≤ new then lowerStep s new else raiseStep s new

/-- A mode change begins; it abandons a running self-test slice (R272) and leaves Idle. -/
def modeBegin (s : State) (m : Nat) : State :=
  let s := wrb (leaveIdle (sliceAbandon s)) Reg.PWR_MODE 14 true
  modeNext { s with power := { s.power with
    changing := some (s.power.force, m),
    unparking := (List.range 4).filter (fun d => parked s d && !parkWanted s m d) } }

/-! ### Standby (R402) -/

/-- May the device enter Standby? -/
def standbyOk (s : State) : Bool := s.rime.images.isEmpty && allFns.all (fun fn => decide (instState s fn ≤ 1))

/-- Is an address in DRAM? -/
def inDram (a : Nat) : Bool := decide (dramBase ≤ a) && decide (a < 0x12000000000)

/-- Standby: SAFE_HOLD, DRAM in self refresh with its contents kept, and no power outside Serac. -/
def standbyEnter (s : State) : State :=
  let t := coldReset s false
  let t := { t with
    mem := s.mem.filter (fun e => inDram e.1), poison := s.poison.filter (fun w => inDram (w * 8)),
    power := { t.power with
      boot := .standby, wakeTimer := s.power.wakeTimer,
      was := (rdf s (Reg.MEM_STATUS 0) 5 4, (List.range 8).map (fun k => rdn s (Reg.MEM_PCH_REBUILT k))) } }
  wrb (hold t 5 true) Reg.SERAC_STATUS 0 false

/-! ### What firmware does when nothing keeps it from it (R399, R404, R407) -/

/-- Processor 3 brings the device to the mode that is due: Field while an emergency stands, else PWR_MODE.REQ. -/
def modeApply (s : State) : State :=
  if ¬ serving s 3 ∨ s.serac.devRestart ∨ s.power.changing.isSome then s
  else if emergency s then
    if s.power.force = 2 ∧ ¬ (List.range 4).any (parked s) then s else modeBegin s 2
  else if ¬ s.serac.restarting.isEmpty then s
  else
    let m := rdf s Reg.PWR_MODE 5 3
    if m = 4 then (if standbyOk s then standbyEnter s else s)
    else if s.power.force ≠ m ∨ rdb s Reg.PWR_STATUS 5 ∨ (List.range 4).any (fun d =>
        (parked s d && !parkWanted s m d) || parkDue s m d) then modeBegin s m
    else s

/-- An activation is abandoned; the staged slot stays VALID. -/
def actAbandon (s : State) (reason : Nat) : State :=
  let k := (s.power.actSlot.map (·.1)).getD 0
  let s := wrf (wrb (wrb s Reg.FW_STATUS 4 false) Reg.FW_STATUS 5 false) Reg.FW_STATUS 10 9 reason
  iceEvent (fwFlag { s with power := { s.power with actSlot := none } } 6) 4 k reason

/-- The slot is named TRIAL and a whole-device restart ordered. -/
def actGo (s : State) (k : Nat) : State :=
  let s := wrb (wrb s Reg.FW_STATUS 4 false) Reg.FW_STATUS 5 false
  let s := { s with power := { s.power with actSlot := none } }
  deviceRestart (nvmSave s 0 { s.power.nvm with trial := some k, tried := false }) 0

/-- Has the limit of a pending activation passed? -/
def actLate (s : State) (t : Nat) : Bool := decide (t + s.power.nvm.platform.fwActLimit * 1000000000 ≤ nowN s)

/-- A pending activation proceeds or is abandoned once no emergency stands; then the mode that is due. -/
def powerPoll (s : State) : State :=
  match s.power.actSlot with
  | none => modeApply s
  | some (k, t) =>
    if emergency s ∨ ¬ serving s 3 ∨ s.serac.devRestart then modeApply s
    else if actLate s t then modeApply (actAbandon s 1)
    else if allFns.any (fun fn => instState s fn == 2 || instState s fn == 3) then modeApply (actAbandon s 2)
    else actGo s k

/-! ### Mode commands (R399-R402) -/

/-- MODE_SET's answer; a request that is accepted stands in PWR_MODE.REQ and PARK_REQ, the last one winning. -/
def modeSet (s : State) (w1 w2 : Word) : Nat × List Word × State :=
  let m := fld w1 2 0
  let mask := fld w1 7 4
  if bit w1 3 ∨ fld w1 63 8 ≠ 0 ∨ fld w2 63 32 ≠ 0 ∨ m = 3 ∨ 4 < m ∨ (mask ≠ 0 ∧ m ≠ 2)
      ∨ 2 < (maskBits 4 mask).length then (0x02, [], s)
  else if (maskBits 4 mask).any (homeDie s) then (0x03, [], s)
  else if m = 4 ∧ ¬ standbyOk s then (0x03, [], s)
  else
    let s := wrf (wrf s Reg.PWR_MODE 5 3 m) Reg.PWR_MODE 13 10 mask
    (0x00, [], { s with power := { s.power with wakeTimer := if m = 4 then fld w2 31 0 else s.power.wakeTimer } })

/-- MODE_SET (R399): what was accepted is applied once the response is written. -/
def execModeSet (m : Mbx) (w1 w2 : Word) (s : State) : Result :=
  .next (modeApply (mbxServe s m 0x20 [w1, w2] (fun s => modeSet s w1 w2)))

/-- CDIV_WRITE (R18): a write by the die's controller. -/
def execCdivWrite (die : Nat) (cdiv : BitVec 3) (s : State) : Result :=
  .next (if live s (4 + die) then cdivSet s die cdiv.toNat else s)

/-- CCLK_RESTART (R18): CCLK restarts at the new divider. A lower CCLK is a judgement point (R235, R400), as is the end
of this step of a mode change. -/
def execCclkRestart (die : Nat) (s : State) : Result :=
  .next (if (getDie s die).cdivBusy then
    let old := cdivAct s die
    let new := (getDie s die).cdivNext.toNat
    let s := wrf (setDie s die { getDie s die with cdivBusy := false }) (Reg.DIE_CLK_STATUS die) 2 0 new
    let all := s.power.changing.any (fun c => clkDone s (clkTarget s c.2))
    modeNext (if old < new ∨ all then modeJudge s else s)
  else s)

/-- AVS_TARGET_REACHED (R425). -/
def execAvsTargetReached (die : Nat) (s : State) : Result :=
  .next (match (getDie s die).avsNext with
    | some t => modeNext (setDie s die { getDie s die with avsTarget := t, avsNext := none })
    | none => s)

/-- AVS_TIMEOUT (R425): no report within 500 µs, die FE 0x6B. -/
def execAvsTimeout (die : Nat) (s : State) : Result :=
  .next (if (getDie s die).avsNext.isSome then detect s .die die .fe 0x6B 0 else s)

/-- DRAM_RETRAIN_DONE (R20): the held requests resume in order. -/
def execDramRetrainDone (die : Nat) (s : State) : Result :=
  .next (if trains s die then
    modeNext (drainHeld (wrb (wrb s (Reg.MEM_STATUS (2 * die)) 3 false) (Reg.MEM_STATUS (2 * die + 1)) 3 false) die)
  else s)

/-- Every die that a change unparks has been filled. -/
def unparkFilled (s : State) : Bool := s.power.unparking.all (fun d => rdb s (Reg.DIE_MEM_STATUS d) 0)

/-- STORE_FILL_DONE (R174): FILL_DONE, and waiting accesses are served. A parked die is filled only when a change
unparks it; once every such die is, their checkers are injected (R269, R400). -/
def execStoreFillDone (die : Nat) (s : State) : Result :=
  .next (if rdb s (Reg.DIE_MEM_STATUS die) 0 then s
    else if ¬ parked s die then fillDone s die
    else if s.power.unparking.contains die ∧ s.power.changing.any (fun c => ratesDone s c.2) then
      let s := fillDone s die
      if unparkFilled s then injectRows (s.power.unparking.foldl injDie s) [2, 3, 4, 5, 9] else s
    else s)

/-- MODE_CHANGE_DONE (R400): the dies whose checkers passed are unparked, CHANGING clears, MODE_EV sets, MODE is
logged; THROTTLED ends (R404). What was asked for meanwhile is applied. -/
def execModeChangeDone (s : State) : Result :=
  .next (match s.power.changing with
    | none => s
    | some (old, m) =>
      if ratesDone s m ∧ unparkFilled s ∧ ¬ (List.range 4).any (parkDue s m) then
        let s := s.power.unparking.foldl unparkDie s
        let s := if s.power.unparking.isEmpty ∨ ¬ s.serac.restarting.isEmpty then s
          else setSerac s { s.serac with injWait := [] }
        let s := { s with power := { s.power with changing := none, unparking := [], force := m } }
        let s := wrf (wrb (wrb s Reg.PWR_MODE 14 false) Reg.PWR_STATUS 5 false) Reg.PWR_MODE 2 0 m
        let s := trace (hwSetBit s Reg.PWR_STATUS Reg.PWR_EVCNT 3) 3 0x09 old m
        powerPoll (modeJudge s)
      else s)

/-- IDLE_ENTRY (R401): no core runs and every kernel queue is empty; CCLK is gated on every core. -/
def execIdleEntry (s : State) : Result :=
  .next (if booted s ∧ rdf s Reg.PWR_MODE 2 0 ≠ 3 ∧ s.power.changing.isNone ∧ ¬ s.serac.devRestart
      ∧ s.power.nvm.platform.idleDelay ≠ 0 ∧ (List.range 128).all (fun n => !running s n)
      ∧ s.snow.ttq.all (fun q => q.2.isEmpty) then
    wrf s Reg.PWR_MODE 2 0 3
  else s)

/-- IDLE_EXIT (R401): a write of CORE_CTL.START in Idle ungates CCLK, and the START takes effect. -/
def execIdleExit (core : Nat) (s : State) : Result :=
  .next (if rdf s Reg.PWR_MODE 2 0 = 3 then startCore s core else s)

/-! ### Emergencies (R403, R404) -/

/-- The hub is powered, so that its detectors work. -/
def hubOn (s : State) : Bool := !(s.power.boot == .held || s.power.boot == .standby)

/-- A flag of R403 changes: EMERG_EV and the Icecore event. -/
def emergEvent (s : State) (i : Nat) (on : Bool) : State :=
  iceEvent (hwSetBit (wrb s Reg.PWR_STATUS i on) Reg.PWR_STATUS Reg.PWR_EVCNT 2) 2 i (b2n on)

/-- Both flags clear: jobs start again, a deferred activation proceeds, PWR_MODE.REQ is applied. -/
def emergOver (s : State) : State :=
  if emergency s then s
  else powerPoll (schedule { s with power := { s.power with emergHold := false } })

/-- THERM_EMERG_SET: a junction at or above THERM_HI for 1 ms. -/
def execThermEmergSet (tj : List Celsius10) (s : State) : Result :=
  .next (
    let s := if hubOn s then setTj s tj else s
    if hubOn s ∧ ¬ rdb s Reg.PWR_STATUS 0 ∧ tj.any (fun t => decide ((s.power.nvm.platform.thermHi : Int) * 10 ≤ t)) then
      modeApply (emergEvent s 0 true)
    else s)

/-- THERM_EMERG_CLEAR: every die below THERM_HI - 5 °C for 1 s. -/
def execThermEmergClear (tj : List Celsius10) (s : State) : Result :=
  .next (
    let s := if hubOn s then setTj s tj else s
    if hubOn s ∧ rdb s Reg.PWR_STATUS 0
        ∧ tj.all (fun t => decide (t < (s.power.nvm.platform.thermHi : Int) * 10 - 50)) then
      emergOver (emergEvent s 0 false)
    else s)

/-- POWER_EMERG_SET: PWR_PKG (0.1 W) above PWR_LIMIT for 10 ms. -/
def execPowerEmergSet (pkg : Nat) (s : State) : Result :=
  .next (
    let s := if hubOn s then wrf s Reg.PWR_PKG 15 0 pkg else s
    if hubOn s ∧ ¬ rdb s Reg.PWR_STATUS 1 ∧ s.power.nvm.platform.pwrLimit * 10 < pkg then
      modeApply (emergEvent s 1 true)
    else s)

/-- POWER_EMERG_CLEAR: PWR_PKG below 95 % of PWR_LIMIT for 1 s. -/
def execPowerEmergClear (pkg : Nat) (s : State) : Result :=
  .next (
    let s := if hubOn s then wrf s Reg.PWR_PKG 15 0 pkg else s
    if hubOn s ∧ rdb s Reg.PWR_STATUS 1 ∧ pkg * 100 < s.power.nvm.platform.pwrLimit * 950 then
      emergOver (emergEvent s 1 false)
    else s)

/-- THROTTLE_TIMEOUT (R404): Field has not been entered within 5 ms; the device itself sets CCLK /6 on every die. -/
def execThrottleTimeout (s : State) : Result :=
  .next (if booted s ∧ ¬ s.serac.devRestart ∧ emergency s ∧ s.power.force ≠ 2 ∧ ¬ rdb s Reg.PWR_STATUS 5 then
    clkStep (wrb s Reg.PWR_STATUS 5 true) 6
  else s)

/-- EMERGENCY_HOLD_TIMER (R404): the emergency has stood for 1 s in Field. -/
def execEmergencyHoldTimer (s : State) : Result :=
  .next (if emergency s ∧ s.power.force = 2 ∧ s.power.changing.isNone then
    { s with power := { s.power with emergHold := true } }
  else s)

/-! ### Firmware activation (R407) -/

/-- FW_ACTIVATE's answer. -/
def fwActivate (s : State) (k : Nat) : Nat × List Word × State :=
  if 2 ≤ k then (0x02, [], s)
  else if ¬ (Tab.get ({} : Slot) s.power.slots k).valid ∨ rdf s Reg.FW_STATUS 0 0 = k
      ∨ allFns.any (fun fn => instState s fn == 2 || instState s fn == 3) then (0x03, [], s)
  else
    let s := wrb (wrb s Reg.FW_STATUS 4 true) Reg.FW_STATUS 5 (emergency s)
    (0x00, [], { s with power := { s.power with actSlot := some (k, nowN s) } })

/-- FW_ACTIVATE: an accepted activation proceeds at once, unless an emergency defers it. -/
def execFwActivate (m : Mbx) (slot : Nat) (s : State) : Result :=
  .next (powerPoll (mbxServe s m 0x21 [BitVec.ofNat 64 slot] (fun s => fwActivate s slot)))

/-- FW_ACTIVATION_TIMEOUT: FW_ACT_LIMIT_S has passed and the activation has not proceeded. -/
def execFwActivationTimeout (s : State) : Result :=
  .next (match s.power.actSlot with
    | some (_, t) => if actLate s t then actAbandon s 1 else s
    | none => s)

/-! ### Starts (R395, R397, R402, Table 15.1) -/

/-- The cold start of a device whose reset inputs are released. -/
def coldStart (s : State) : State :=
  if s.power.boot = .held ∧ s.pins.porst ∧ s.pins.safePorst then
    startFrom (hold (iceAdd s 0x80 32 1) 0 true) (List.range 10) (0, List.replicate 8 0)
  else s

def execColdStart (s : State) : Result := .next (coldStart s)

/-- Every die in service that is not parked has been filled. -/
def filled (s : State) : Bool :=
  (List.range 4).all (fun d => !(getDie s d).inService || parked s d || rdb s (Reg.DIE_MEM_STATUS d) 0)

/-- DEVICE_READY (Table 15.1 steps 10-12): the clocks run and the stores are filled. -/
def execDeviceReady (s : State) : Result :=
  .next (if s.power.boot = .started ∧ s.clk.locked ∧ ¬ s.serac.devRestart ∧ filled s then
    let s := startReleased s
    powerPoll (scrubAgain (confirmTrial { s with power := { s.power with boot := .ready } }))
  else s)

/-- STANDBY_WAKE (R402): a start from step 2; Serac is not reset and rows 0 and 1 are not injected. -/
def execStandbyWake (why : WakeCause) (s : State) : Result :=
  .next (if s.power.boot = .standby ∧ (why = .wakeN ∨ s.power.wakeTimer ≠ 0) then
    startFrom s [2, 3, 4, 5, 6, 7, 8, 9] s.power.was
  else s)

/-- The image of a RECOVERY_LOAD as a slot that passes the checks of R396 and R406. -/
def recoverySlot (s : State) (len : Nat) (bs : List (Byte × Bool)) : Option Slot :=
  if 0x2000000 < len ∨ bs.any (·.2) then none
  else match Config.verifyPackage (bs.map (·.1)) with
    | some v => if s.power.nvm.minSvn ≤ v then some ⟨bs.map (·.1), true, v⟩ else none
    | none => none

/-- RECOVERY_LOAD in recovery: an image that fails leaves the slot empty; one that passes is booted by a cold start. A
device region that had taken its defaults names the slot ACTIVE (log entry 39). -/
def recoveryLoad (s : State) (m : Mbx) (slot len : Nat) : State :=
  let (bs, s) := busReadBytes s (fwWho 3) fwLabel (watermark s) len
  match recoverySlot s len bs with
  | none => mbxDone (slotEmpty s slot) m 0x02 []
  | some x =>
    let s := { s with power := { s.power with slots := Tab.set s.power.slots slot x } }
    let s := if (nvmCopy s 0).seq = 0 then
        nvmSave s 0 { s.power.nvm with active := slot, trial := none, tried := false } else s
    coldStart (hold (coldReset (mbxDone s m 0x00 []) false) 0 true)

/-- RECOVERY_LOAD (R397). -/
def execRecoveryLoad (m : Mbx) (slot len : Nat) (s : State) : Result :=
  .next (if s.power.boot = .recovery then
    if rdb s (Reg.MBX_STATUS 16) 0 then s
    else
      let s := mbxReq s m 0x27 [BitVec.ofNat 64 slot, BitVec.ofNat 64 len]
      if 2 ≤ slot then mbxDone s m 0x02 [] else recoveryLoad s m slot len
  else mbxServe s m 0x27 [BitVec.ofNat 64 slot, BitVec.ofNat 64 len] (fun s => (0x03, [], s)))

/-! ### Ends of restarts, and a claim released (R275, R276, R248, R339) -/

def execDieRestartDone (die : Nat) (pass : Bool) (s : State) : Result :=
  .next (powerPoll (modeNext (dieRestartDone s die pass)))

def execDeviceRestartReady (s : State) : Result := .next (powerPoll (deviceRestartReady s))

/-- RIME_RESTART_COMPLETE (R248); processor 3 completes a change of mode that waited for it (R404). -/
def execRimeRestartComplete (p : Nat) (s : State) : Result :=
  .next (if rdb s (Reg.RIME_STATUS p) 1 ∧ domainIdle s p then
    (if p = 3 then powerPoll (restartComplete s p) else restartComplete s p)
  else s)

/-- PM_RELEASE (R339): a pending cut is performed, and so is a park that the claim kept pending (R338). -/
def execPmRelease (p : Nat) (s : State) : Result :=
  .next (service s p 0x02 (fun s c =>
    let b := procX s p 10
    if c.world = .secure ∧ b < 28 then
      let s := wrb s Reg.SEC_CLAIM b false
      let s := if rdb s Reg.SEC_PM_PEND b then
          performCut (wrb s Reg.SEC_PM_PEND b false) (rdb s Reg.SEC_PM_KIND b) b true
        else s
      let s := if b < 4 ∧ s.power.changing.isNone ∧ parkDue s s.power.force b then parkDie s b else s
      svcRet s p 0
    else svcRet s p 1))

end Sys2Proof.Machine
end

