-- ==== Sys2Proof/Machine/Pins.lean ====
section
/-! DEFINITION. Reset inputs and the loss of power (R12, R421, R427, Table 16.3). -/

namespace Sys2Proof.Machine

/-- Every block outside the island is in cold reset, and SAFE_HOLD is requested with cause START. -/
def resetHeld (s : State) (island : Bool) : State := hold (coldReset s island) 0 true

/-- SAFE_PORST_N (R421): a low level resets the island and holds every other block in reset. -/
def execSafePorstN (level : Bool) (s : State) : Result :=
  .next (let s := { s with pins := { s.pins with safePorst := level } }
    if level then coldStart s else resetHeld s true)

/-- PORST_N (R421): a low level cold-resets every block outside the island; its release starts Table 15.1. -/
def execPorstN (level : Bool) (s : State) : Result :=
  .next (let s := { s with pins := { s.pins with porst := level } }
    if level then coldStart s else resetHeld s false)

/-- PERST_N (R421, R318): a falling edge acts on the instances as an FLR of the physical function. -/
def execPerstN (level : Bool) (s : State) : Result :=
  .next (let t := { s with pins := { s.pins with perst := level } }
    if s.pins.perst ∧ ¬ level ∧ hubOn s then forUpTo 17 (fun fn u => flr u fn) t else t)

/-- TRST_N (R421): a low level resets the debug port only, which then makes no access. -/
def execTrstN (level : Bool) (s : State) : Result :=
  .next { s with pins := { s.pins with trst := level } }

/-- The newest record of the ring (R413). -/
def newestRec (s : State) : IceRec := (s.power.ring.head?.map (·.2)).getD {}

/-- POWER_LOSS (R427): everything outside persistent memory and flash goes, and with it what was counted after the
last record; the clock supply's return is a power-on reset. An NVM write takes effect whole or not at all. -/
def execPowerLoss (s : State) : Result :=
  .next (let t := resetHeld s true
    let ice : IceRec := { newestRec s with seq := 0, time := 0, svn := 0 }
    wrn { t with power := { t.power with ice := ice } } Reg.ICE_POH (Tab.get 0 ice.acc 0x40))

end Sys2Proof.Machine
end

