-- ==== Sys2Proof/Machine/Registers.lean ====
section
/-! DEFINITION. Register access as a command (R8-R11, R34-R36): a write by its access code, with the actions of the
registers that act on a write, W1C clears, reads that clear, reads by halves, and the debug port (R335). -/

namespace Sys2Proof.Machine

/-! ### Registers that act on a write -/

/-- The state a meaning leaves. -/
def after (r : Result) (s : State) : State :=
  match r with
  | .next t => t
  | _ => s

/-- GO of the mailbox (R315): the request that stands in MBX_REQ0-MBX_REQ7, by its CMD (Tables 11.5 and 15.3). -/
def mbxGo (s : State) : State :=
  let w (i : Nat) : Word := rd s (Reg.MBX_REQ 16 i)
  let n (i hi lo : Nat) : Nat := fld (w i) hi lo
  let m : Mbx := ⟨n 0 12 8, BitVec.ofNat 32 (n 0 63 32)⟩
  let recs := (List.range 4).map (fun p => (w (p + 2)).toNat)
  let fields := (List.range 5).map (fun i => w (i + 2))
  after (match n 0 7 0 with
    | 0x01 => execInstConfig m (w 1).toNat recs s
    | 0x02 => execAptMap m (w 1).toNat (w 2) s
    | 0x03 => execInstQuiesce m (bit (w 1) 0) s
    | 0x04 => execInstReset m s
    | 0x05 => execInstRemove m s
    | 0x06 => execDirtyStart m (w 1).toNat s
    | 0x07 => execDirtyHarvest m (w 1).toNat (w 2).toNat (w 3).toNat s
    | 0x08 => execDirtyStop m s
    | 0x09 => execCountsRead m s
    | 0x10 => execLogSetup m (w 1).toNat (w 2).toNat (w 3) s
    | 0x11 => execLinkReturn m (w 1) s
    | 0x12 => execConduitBind m (w 1).toNat fields s
    | 0x13 => execConduitUnbind m (w 1).toNat s
    | 0x20 => execModeSet m (w 1) (w 2) s
    | 0x21 => execFwActivate m (w 1).toNat s
    | 0x22 => execNvmStore m (w 1).toNat (w 2).toNat (w 3).toNat s
    | 0x23 => execNvmRead m (w 1).toNat (w 2).toNat s
    | 0x24 => execIcecoreWrite m s
    | 0x25 => execIcecoreRead m (w 1).toNat (w 2).toNat s
    | 0x26 => execFrostArm m (BitVec.ofNat 32 (w 1).toNat) s
    | 0x27 => execRecoveryLoad m (w 1).toNat (w 2).toNat s
    | c => .next (mbxServe s m c [w 1, w 2, w 3, w 4, w 5, w 6, w 7] (fun s => (0x02, [], s)))) s

/-- ERR_INJECT at offset `o` of an error block. -/
def injectAt (s : State) (who : Requester) (b : Blk) (u off : Nat) (v : Word) : Option State :=
  match b with
  | .core =>
    if off = 0x128 then some (errInject s who .core u v)
    else if 0x140 ≤ off ∧ off < 0x280 ∧ (off - 0x140) % 0x40 = 0x28 then
      some (errInject s who .engine (5 * u + (off - 0x140) / 0x40) v)
    else none
  | .cluster => if off = 0x128 then some (errInject s who .cluster u v) else none
  | .die => if off = 0x128 then some (errInject s who .die u v) else none
  | .hubId => if off = 0x128 then some (errInject s who .package 0 v) else none
  | _ => none

/-- MLOG_CLEAR of a log block. -/
def mlogAt (s : State) (who : Requester) (b : Blk) (u off a : Nat) (v : Word) : Option State :=
  if ¬ mayWrite s who b u off then none
  else match b with
    | .dctl => if a = Reg.MLOG_CLEAR (.dram u) then some (mlogFree s (.dram u) v) else none
    | .cluster => if a = Reg.MLOG_CLEAR (.clusterStore u) then some (mlogFree s (.clusterStore u) v) else none
    | .core =>
      if a = Reg.MLOG_CLEAR (.coreStore u) then some (mlogFree s (.coreStore u) v)
      else if a = Reg.MLOG_CLEAR (.instrStore u) then some (mlogFree s (.instrStore u) v)
      else none
    | _ => none

/-- CORE_CTL: START and ABORT beside the RW bits. -/
def coreCtlWrite (s : State) (who : Requester) (n : Nat) (v : Word) : State :=
  if mayWrite s who .core n 0 then
    let s := regWrite s who (Reg.CORE_CTL n) 32 v
    let s := if bit v 0 then startCore s n else s
    if bit v 1 then coreAbort s n else s
  else s

/-- A function's doorbell page. -/
def bar0Write (s : State) (who : Requester) (fn off a width : Nat) (v : Word) : State :=
  let t := regWrite s who a width v
  if ¬ mayWrite s who .bar0 fn off then s
  else if a = Reg.HIF_CTL fn then (if bit v 0 then after (execInstanceOpen fn t) t else t)
  else if a = Reg.MBX_CTL 16 then (if bit v 0 then mbxGo t else t)
  else match (List.range 4).find? (fun p => a == Reg.HIF_SQ_TAIL fn p || a == Reg.HIF_CQ_HEAD fn p) with
    | some p => pairCheck t fn p
    | none => t

/-- The Snowline block: increments, slews, steps, RELOCK, ARM, DISARM and PUSH beside the RW bits. -/
def snowWrite (s : State) (who : Requester) (off a width : Nat) (v : Word) : State :=
  if a = Reg.SNOW_CTL then
    let t := regWrite s who a width v
    if bit v 1 then after (execRelock who t) t else t
  else if a = Reg.SNOW_INCR then after (execSnowIncrWrite who v s) s
  else if a = Reg.SNOW_SLEW then after (execSnowSlewWrite who v s) s
  else if a = Reg.SNOW_STEP then after (execSnowStepWrite who v s) s
  else if 0x100 ≤ off ∧ off < 0x280 ∧ off % 0x20 = 0 then
    let u := (off - 0x100) / 0x20
    let t := regWrite s who a width v
    let t := if bit v 0 then after (execCmpArm who u t) t else t
    if bit v 1 then after (execCmpDisarm who u t) t else t
  else match (List.range 4).find? (fun q => a == Reg.TTQ_CTL q) with
    | some q => if bit v 0 then after (execTtqPush who q s) s else s
    | none => regWrite s who a width v

/-- The power, settings, firmware, Icecore and Frost block. -/
def powerWrite (s : State) (who : Requester) (a width : Nat) (v : Word) : State :=
  if a = Reg.FROST_CTL then frostCtl s who v
  else if a = Reg.FROST_TRIG then (if who = .debug ∧ bit v 0 then frostHit s 0 else s)
  else if a = Reg.PWR_CLK_OFF ∨ a = Reg.PWR_PWR_OFF then
    (match who with
      | .rime 3 w => cutWrite s w (a == Reg.PWR_PWR_OFF) v
      | _ => s)
  else regWrite s who a width v

/-- A write of a register at its own address, by its access code and its action (R9). -/
def writeReg (s : State) (who : Requester) (a width : Nat) (v : Word) : State :=
  match blkOf a with
  | none => s
  | some (b, u, off) =>
    match injectAt s who b u off v, mlogAt s who b u off a v, chanAt b u off with
    | some t, _, _ => t
    | none, some t, _ => t
    | none, none, some (c, 0x18) => mvCtlWrite s who c v
    | none, none, _ =>
      match b with
      | .core =>
        if a = Reg.CORE_CTL u then coreCtlWrite s who u v
        else if 0x400 ≤ off ∧ off < 0x600 ∧ off % 8 = 0 then
          after (execSemaphoreWrite who (.core u ((off - 0x400) / 8)) (BitVec.ofNat 16 v.toNat) s) s
        else regWrite s who a width v
      | .cluster =>
        if 0x1000 ≤ off ∧ off < 0x1800 ∧ off % 8 = 0 then
          after (execSemaphoreWrite who (.cluster u ((off - 0x1000) / 8)) (BitVec.ofNat 16 v.toNat) s) s
        else regWrite s who a width v
      | .die =>
        let t := regWrite s who a width v
        if a = Reg.DIE_MEM_CTL u ∧ bit v 0 ∧ mayWrite s who b u off then fillStart t u else t
      | .clkd => if a = Reg.DIE_CLK_CTL u ∧ mayWrite s who b u off then cdivSet s u (fld v 2 0) else s
      | .drift =>
        if 0x100 ≤ off ∧ off < 0x400 ∧ off % 4 = 0 then
          after (execDriftShareWrite who ((off - 0x100) / 32) ((off - 0x100) / 4 % 8) (BitVec.ofNat 32 v.toNat) s) s
        else regWrite s who a width v
      | .rime => if off = 0x18 then after (execWdtKick who u (BitVec.ofNat 32 v.toNat) s) s else regWrite s who a width v
      | .baseth =>
        let t := regWrite s who a width v
        (match (List.range 64).find? (fun n => a == Reg.CND_CTL n) with
          | some n => if ¬ mayWrite s who b u off then s
            else if bit v 0 then conduitEnable t n else conduitDisable t n
          | none => t)
      | .bar0 => bar0Write s who u off a width v
      | .snow => snowWrite s who off a width v
      | .power => powerWrite s who a width v
      | _ => regWrite s who a width v

/-! ### The commands -/

/-- REGISTER_WRITE (R9, R11). -/
def execRegisterWrite (who : Requester) (addr width : Nat) (val : Word) (s : State) : Result :=
  .next (writeReg s who addr width val)

/-- The event counter of the W1C register at `a` (R36): the one of its own channel, port, engine or conduit where
counters repeat as the registers do, else the block's. -/
def evReg (b : Blk) (u : Nat) (r : RegRow) (a : Nat) : Option Nat :=
  r.ev.map (fun e =>
    let repeats := (b.rows.find? (fun q => q.holds e)).any (fun q => q.count == r.count && q.stride == r.stride)
    b.base u + e + (if repeats then a - b.base u - r.off else 0))

/-- W1C_CLEAR (R34-R36): every bit written as 1 clears; what hardware sets in the same cycle (`hw`) stays set and is
counted. -/
def execW1cClear (who : Requester) (addr : Nat) (val hw : Word) (s : State) : Result :=
  .next (match regInfo addr with
    | none => s
    | some (b, u, r) =>
      let s := regWrite s who addr r.width (val &&& r.w1c ||| (rd s addr &&& ~~~ r.w1c))
      match evReg b u r addr with
      | some e => if hw &&& r.w1c = 0 then s else hwSet s addr e (hw &&& r.w1c)
      | none => wr s addr (rd s addr ||| (hw &&& r.w1c)))

/-- RC_READ (R9): the value, then the clear; what arrives in the same cycle stays. -/
def execRcRead (who : Requester) (addr : Nat) (arrive : Word) (s : State) : Result :=
  .next (wholeRead s who addr arrive)

/-- REG64_LOW_READ (R8): the high half is latched for the next read of it. -/
def execReg64LowRead (who : Requester) (addr : Nat) (s : State) : Result := .next (lowRead s who addr)

/-! ### The debug port (R335, R330) -/

/-- Does the block count as secure world for debug (R335)? -/
def secureBlk : Blk → Bool
  | .sec => true
  | .rime => true
  | .baseth => true
  | .power => true
  | _ => false

/-- Is invasive debug of a world enabled, or any debug of it (Table 12.8)? -/
def debugInv (s : State) (sec : Bool) : Bool := rdb s Reg.SEC_DBG (if sec then 2 else 0)
def debugAny (s : State) (sec : Bool) : Bool := debugInv s sec || rdb s Reg.SEC_DBG (if sec then 3 else 1)

/-- May a debug access to a register take place? Serac is readable by any requester and never open to invasive debug;
FROST_TRIG takes either world's invasive enable (R414). -/
def debugRegOk (s : State) (write : Bool) (a : Nat) : Bool :=
  match blkOf a with
  | some (.serac, _, _) => !write
  | some (b, _, _) =>
    if write then debugInv s (secureBlk b) || (a == Reg.FROST_TRIG && debugInv s false) else debugAny s (secureBlk b)
  | none => if write then debugInv s false else debugAny s false

/-- May a debug access to memory take place? Never inside an enclave. -/
def debugMemOk (s : State) (write : Bool) (a : Nat) : Bool :=
  (enclaveAt s a).isNone && (if write then debugInv s (secureAddr s a) else debugAny s (secureAddr s a))

/-- A debug write by `width` bits; a refused one is a violation and changes nothing else. -/
def debugWrite (s : State) (a width : Nat) (v : Word) : State :=
  match placeOf a with
  | .reg => if debugRegOk s true a then writeReg s .debug a width v else secViolation s a
  | _ =>
    if debugMemOk s true a then
      busWriteBytes .debug fwLabel 2 s a ((bytesLE (width / 8) v.toNat).map (fun b => (b, false)))
    else secViolation s a

/-- A debug read; it clears no RC field (R10), and one with the snapshot attribute reads the Frost copy (R416). A refused
one returns poisoned 0. -/
def debugRead (s : State) (a width : Nat) (snap : Bool) : State :=
  let cut (v : Word) : Word := if width = 64 then v else v &&& 0xFFFFFFFF#64
  let refused (s : State) : State := emit (secViolation s a) (.readData a 0 true)
  match placeOf a with
  | .reg =>
    if ¬ debugRegOk s false a then refused s
    else if snap then emit s (.readData a (cut (frostValue s a)) false)
    else match regKey a with
      | some (k, hi) =>
        let v := (regRead s .debug k 0).1
        emit s (.readData a (cut (if hi then v >>> 32 else v)) false)
      | none => emit s (.readData a 0 false)
  | _ =>
    if ¬ debugMemOk s false a then refused s
    else
      let (w, s) := busRead (lineRead s fwLabel a) .debug (a / 8 * 8)
      emit s (.readData a (cut (w.v >>> (a % 8 * 8))) w.p)

/-- DEBUG_ACCESS (R335): the debug port acts while TRST_N is high. -/
def execDebugAccess (write : Bool) (addr width : Nat) (val : Word) (snapshot : Bool) (s : State) : Result :=
  .next (if ¬ s.pins.trst then s
    else if write then debugWrite s addr width val
    else debugRead s addr width snapshot)

end Sys2Proof.Machine
end

