-- ==== Sys2Proof/Machine/Dispatch.lean ====
section
/-! DEFINITION. The dispatch: one arm per constructor of `Instr`, each one call of the command's meaning. -/

namespace Sys2Proof.Machine

def exec (i : Instr) (s : State) : Host.Outcome State Fault Refusal :=
  match i with
  | .registerWrite who addr width val => Sys2Proof.Machine.execRegisterWrite who addr width val s
  | .w1cClear who addr val hw => Sys2Proof.Machine.execW1cClear who addr val hw s
  | .rcRead who addr arrive => Sys2Proof.Machine.execRcRead who addr arrive s
  | .reg64LowRead who addr => Sys2Proof.Machine.execReg64LowRead who addr s
  | .rootPllLock => Sys2Proof.Machine.execRootPllLock s
  | .rootPllLockLoss => Sys2Proof.Machine.execRootPllLockLoss s
  | .clockMonitorWindow pclk nclk => Sys2Proof.Machine.execClockMonitorWindow pclk nclk s
  | .seracClockCheck count => Sys2Proof.Machine.execSeracClockCheck count s
  | .cdivWrite die cdiv => Sys2Proof.Machine.execCdivWrite die cdiv s
  | .cclkRestart die => Sys2Proof.Machine.execCclkRestart die s
  | .dramRetrainDone die => Sys2Proof.Machine.execDramRetrainDone die s
  | .errorReport => Sys2Proof.Machine.execErrorReport s
  | .errInject who lvl unit val => Sys2Proof.Machine.execErrInject who lvl unit val s
  | .coreStart core => Sys2Proof.Machine.execCoreStart core s
  | .coreAbort core => Sys2Proof.Machine.execCoreAbort core s
  | .semaphoreWrite who sem val => Sys2Proof.Machine.execSemaphoreWrite who sem val s
  | .bundleDispatch core flt => Sys2Proof.Machine.execBundleDispatch core flt s
  | .engineIssue core eng flt => Sys2Proof.Machine.execEngineIssue core eng flt s
  | .nop core => Sys2Proof.Machine.execNop core s
  | .li core d imm => Sys2Proof.Machine.execLi core d imm s
  | .lui core d imm => Sys2Proof.Machine.execLui core d imm s
  | .add core d a b md imm => Sys2Proof.Machine.execAdd core d a b md imm s
  | .sub core d a b md imm => Sys2Proof.Machine.execSub core d a b md imm s
  | .and core d a b md imm => Sys2Proof.Machine.execAnd core d a b md imm s
  | .or core d a b md imm => Sys2Proof.Machine.execOr core d a b md imm s
  | .xor core d a b md imm => Sys2Proof.Machine.execXor core d a b md imm s
  | .shl core d a b md imm => Sys2Proof.Machine.execShl core d a b md imm s
  | .shr core d a b md imm => Sys2Proof.Machine.execShr core d a b md imm s
  | .sar core d a b md imm => Sys2Proof.Machine.execSar core d a b md imm s
  | .mul core d a b => Sys2Proof.Machine.execMul core d a b s
  | .min core d a b => Sys2Proof.Machine.execMin core d a b s
  | .max core d a b => Sys2Proof.Machine.execMax core d a b s
  | .cmp core d a b md => Sys2Proof.Machine.execCmp core d a b md s
  | .mova core d a => Sys2Proof.Machine.execMova core d a s
  | .movs core d a => Sys2Proof.Machine.execMovs core d a s
  | .adda core d a b md imm => Sys2Proof.Machine.execAdda core d a b md imm s
  | .ld core d a imm => Sys2Proof.Machine.execLd core d a imm s
  | .st core b a imm => Sys2Proof.Machine.execSt core b a imm s
  | .br core imm => Sys2Proof.Machine.execBr core imm s
  | .brnz core a imm => Sys2Proof.Machine.execBrnz core a imm s
  | .brz core a imm => Sys2Proof.Machine.execBrz core a imm s
  | .loop core a imm => Sys2Proof.Machine.execLoop core a imm s
  | .rdcyc core d => Sys2Proof.Machine.execRdcyc core d s
  | .rdtime core d => Sys2Proof.Machine.execRdtime core d s
  | .sset core a imm => Sys2Proof.Machine.execSset core a imm s
  | .sread core d imm => Sys2Proof.Machine.execSread core d imm s
  | .swait core u imm => Sys2Proof.Machine.execSwait core u imm s
  | .swaitG core u imm => Sys2Proof.Machine.execSwaitG core u imm s
  | .semaphoreGrant core u => Sys2Proof.Machine.execSemaphoreGrant core u s
  | .ssig core u imm => Sys2Proof.Machine.execSsig core u imm s
  | .barCore core => Sys2Proof.Machine.execBarCore core s
  | .barCl core imm => Sys2Proof.Machine.execBarCl core imm s
  | .barrierRelease cluster id => Sys2Proof.Machine.execBarrierRelease cluster id s
  | .checkpoint core => Sys2Proof.Machine.execCheckpoint core s
  | .checkpointGap core => Sys2Proof.Machine.execCheckpointGap core s
  | .halt core => Sys2Proof.Machine.execHalt core s
  | .haltDrained core => Sys2Proof.Machine.execHaltDrained core s
  | .coreBudgetExpiry core => Sys2Proof.Machine.execCoreBudgetExpiry core s
  | .mcfg core a => Sys2Proof.Machine.execMcfg core a s
  | .mscale core a b => Sys2Proof.Machine.execMscale core a b s
  | .mzero core t => Sys2Proof.Machine.execMzero core t s
  | .mmac core t a b c => Sys2Proof.Machine.execMmac core t a b c s
  | .mld core t a => Sys2Proof.Machine.execMld core t a s
  | .mout core t d md imm => Sys2Proof.Machine.execMout core t d md imm s
  | .vld core d a imm => Sys2Proof.Machine.execVld core d a imm s
  | .vst core b a imm => Sys2Proof.Machine.execVst core b a imm s
  | .vldg core d a b => Sys2Proof.Machine.execVldg core d a b s
  | .vbcast core d a md => Sys2Proof.Machine.execVbcast core d a md s
  | .vadd core d a b md => Sys2Proof.Machine.execVadd core d a b md s
  | .vsub core d a b md => Sys2Proof.Machine.execVsub core d a b md s
  | .vmul core d a b md => Sys2Proof.Machine.execVmul core d a b md s
  | .vmin core d a b md => Sys2Proof.Machine.execVmin core d a b md s
  | .vmax core d a b md => Sys2Proof.Machine.execVmax core d a b md s
  | .vfma core d a b c md => Sys2Proof.Machine.execVfma core d a b c md s
  | .vabs core d a md => Sys2Proof.Machine.execVabs core d a md s
  | .vneg core d a md => Sys2Proof.Machine.execVneg core d a md s
  | .vcmp core d a b md imm => Sys2Proof.Machine.execVcmp core d a b md imm s
  | .vsel core d a b c md => Sys2Proof.Machine.execVsel core d a b c md s
  | .vshuf core d a b md => Sys2Proof.Machine.execVshuf core d a b md s
  | .vred core d a md imm => Sys2Proof.Machine.execVred core d a md imm s
  | .vexp2 core d a md => Sys2Proof.Machine.execVexp2 core d a md s
  | .vlog2 core d a md => Sys2Proof.Machine.execVlog2 core d a md s
  | .vrcp core d a md => Sys2Proof.Machine.execVrcp core d a md s
  | .vrsq core d a md => Sys2Proof.Machine.execVrsq core d a md s
  | .vcvt core d a md imm => Sys2Proof.Machine.execVcvt core d a md imm s
  | .vrope core d a b md => Sys2Proof.Machine.execVrope core d a b md s
  | .vtld core d t imm => Sys2Proof.Machine.execVtld core d t imm s
  | .vtst core t a imm => Sys2Proof.Machine.execVtst core t a imm s
  | .vmovs core d a md imm => Sys2Proof.Machine.execVmovs core d a md imm s
  | .dmvStart core ch a => Sys2Proof.Machine.execDmvStart core ch a s
  | .dmvWait core ch => Sys2Proof.Machine.execDmvWait core ch s
  | .dmvStop core ch => Sys2Proof.Machine.execDmvStop core ch s
  | .syncMem core => Sys2Proof.Machine.execSyncMem core s
  | .wnRun core a => Sys2Proof.Machine.execWnRun core a s
  | .wnAckWaitGrant core => Sys2Proof.Machine.execWnAckWaitGrant core s
  | .wnHaloWaitGrant core => Sys2Proof.Machine.execWnHaloWaitGrant core s
  | .wnFinalHaloSettle core => Sys2Proof.Machine.execWnFinalHaloSettle core s
  | .atRun core a => Sys2Proof.Machine.execAtRun core a s
  | .atMerge core a => Sys2Proof.Machine.execAtMerge core a s
  | .tcMissServe die page => Sys2Proof.Machine.execTcMissServe die page s
  | .firnStep e mi addr => Sys2Proof.Machine.execFirnStep e mi addr s
  | .seqRelease e seq => Sys2Proof.Machine.execSeqRelease e seq s
  | .prefixLookup e mi addr count => Sys2Proof.Machine.execPrefixLookup e mi addr count s
  | .prefixInsert e seq addr count => Sys2Proof.Machine.execPrefixInsert e seq addr count s
  | .firnQuery e seq => Sys2Proof.Machine.execFirnQuery e seq s
  | .firnBoundary mi => Sys2Proof.Machine.execFirnBoundary mi s
  | .firnCommit mi copyUc => Sys2Proof.Machine.execFirnCommit mi copyUc s
  | .firnGather mi notOk => Sys2Proof.Machine.execFirnGather mi notOk s
  | .firnGatherTimeout mi => Sys2Proof.Machine.execFirnGatherTimeout mi s
  | .memoryRead who lab addr a1 a2 => Sys2Proof.Machine.execMemoryRead who lab addr a1 a2 s
  | .memoryWrite who lab addr val poison => Sys2Proof.Machine.execMemoryWrite who lab addr val poison s
  | .storeFill who die => Sys2Proof.Machine.execStoreFill who die s
  | .storeFillDone die => Sys2Proof.Machine.execStoreFillDone die s
  | .mlogClear log val rec => Sys2Proof.Machine.execMlogClear log val rec s
  | .mvStart who ch val => Sys2Proof.Machine.execMvStart who ch val s
  | .mvStop who ch => Sys2Proof.Machine.execMvStop who ch s
  | .mvDescriptorFetch ch => Sys2Proof.Machine.execMvDescriptorFetch ch s
  | .mvTrigger ch => Sys2Proof.Machine.execMvTrigger ch s
  | .mvRequest line => Sys2Proof.Machine.execMvRequest line s
  | .mvCoreDone core ch => Sys2Proof.Machine.execMvCoreDone core ch s
  | .mvReadbackDone ch => Sys2Proof.Machine.execMvReadbackDone ch s
  | .driftShareWrite who res cls val => Sys2Proof.Machine.execDriftShareWrite who res cls val s
  | .sqDoorbell fn prio val => Sys2Proof.Machine.execSqDoorbell fn prio val s
  | .cqHeadWrite fn prio val => Sys2Proof.Machine.execCqHeadWrite fn prio val s
  | .instanceOpen fn => Sys2Proof.Machine.execInstanceOpen fn s
  | .entryConsume => Sys2Proof.Machine.execEntryConsume s
  | .msixSend fn vec => Sys2Proof.Machine.execMsixSend fn vec s
  | .jobRun e timed image start args => Sys2Proof.Machine.execJobRun e timed image start args s
  | .jobCancel e w0 => Sys2Proof.Machine.execJobCancel e w0 s
  | .modelLoad e addr len => Sys2Proof.Machine.execModelLoad e addr len s
  | .modelUnload e image => Sys2Proof.Machine.execModelUnload e image s
  | .longSuspend e w0 => Sys2Proof.Machine.execLongSuspend e w0 s
  | .longResume e w0 => Sys2Proof.Machine.execLongResume e w0 s
  | .longCancel e w0 => Sys2Proof.Machine.execLongCancel e w0 s
  | .longOpPoint e flashErr => Sys2Proof.Machine.execLongOpPoint e flashErr s
  | .memFill e base len pattern w3 => Sys2Proof.Machine.execMemFill e base len pattern w3 s
  | .selftest e w0 w1 w2 => Sys2Proof.Machine.execSelftest e w0 w1 w2 s
  | .fwStage e addr len slot => Sys2Proof.Machine.execFwStage e addr len slot s
  | .tenantScrub e => Sys2Proof.Machine.execTenantScrub e s
  | .kvCompact e mi pages => Sys2Proof.Machine.execKvCompact e mi pages s
  | .queryCounts e => Sys2Proof.Machine.execQueryCounts e s
  | .kernelEnd job => Sys2Proof.Machine.execKernelEnd job s
  | .contextSwitchDone job => Sys2Proof.Machine.execContextSwitchDone job s
  | .fallbackTimer job => Sys2Proof.Machine.execFallbackTimer job s
  | .wdtKick who p val => Sys2Proof.Machine.execWdtKick who p val s
  | .watchdogExpiry p pc => Sys2Proof.Machine.execWatchdogExpiry p pc s
  | .rimeRestartComplete p => Sys2Proof.Machine.execRimeRestartComplete p s
  | .logEntry proc lvl point arg0 arg1 => Sys2Proof.Machine.execLogEntry proc lvl point arg0 arg1 s
  | .schedEpoch => Sys2Proof.Machine.execSchedEpoch s
  | .seracHeartbeat pair arrived => Sys2Proof.Machine.execSeracHeartbeat pair arrived s
  | .lockstepWindow pair sigLead sigTrail => Sys2Proof.Machine.execLockstepWindow pair sigLead sigTrail s
  | .seracInputLatch pair tries => Sys2Proof.Machine.execSeracInputLatch pair tries s
  | .twinCompare cluster pair => Sys2Proof.Machine.execTwinCompare cluster pair s
  | .twinAbsentTimeout cluster pair => Sys2Proof.Machine.execTwinAbsentTimeout cluster pair s
  | .mismatchDecision => Sys2Proof.Machine.execMismatchDecision s
  | .taskWindowJudge task => Sys2Proof.Machine.execTaskWindowJudge task s
  | .injectionTimeout bit => Sys2Proof.Machine.execInjectionTimeout bit s
  | .selftestSliceStart => Sys2Proof.Machine.execSelftestSliceStart s
  | .selftestSliceEnd pass => Sys2Proof.Machine.execSelftestSliceEnd pass s
  | .selftestAgeCheck => Sys2Proof.Machine.execSelftestAgeCheck s
  | .railSample rail mv => Sys2Proof.Machine.execRailSample rail mv s
  | .seracFaultResponse => Sys2Proof.Machine.execSeracFaultResponse s
  | .dieRestartDone die pass => Sys2Proof.Machine.execDieRestartDone die pass s
  | .deviceRestartReady => Sys2Proof.Machine.execDeviceRestartReady s
  | .flitReceive port f fecLanes => Sys2Proof.Machine.execFlitReceive port f fecLanes s
  | .portRetrainDone port ok => Sys2Proof.Machine.execPortRetrainDone port ok s
  | .portPeerTimeout port => Sys2Proof.Machine.execPortPeerTimeout port s
  | .portTrain port peer peerPort gen planHash => Sys2Proof.Machine.execPortTrain port peer peerPort gen planHash s
  | .fmElection peers x y z wired => Sys2Proof.Machine.execFmElection peers x y z wired s
  | .fmTakeover => Sys2Proof.Machine.execFmTakeover s
  | .linkMapDistribute links at_ => Sys2Proof.Machine.execLinkMapDistribute links at_ s
  | .fabricEpoch => Sys2Proof.Machine.execFabricEpoch s
  | .staleFlitDiscard => Sys2Proof.Machine.execStaleFlitDiscard s
  | .returnPrepare port lanes whole deadline => Sys2Proof.Machine.execReturnPrepare port lanes whole deadline s
  | .returnAnswer port ownErrors peerReady epochAt => Sys2Proof.Machine.execReturnAnswer port ownErrors peerReady epochAt s
  | .returnCommit port peerMarker => Sys2Proof.Machine.execReturnCommit port peerMarker s
  | .returnAbort port => Sys2Proof.Machine.execReturnAbort port s
  | .bondMarkerTimeout port => Sys2Proof.Machine.execBondMarkerTimeout port s
  | .returnDeadline port => Sys2Proof.Machine.execReturnDeadline port s
  | .conduitTrigger n => Sys2Proof.Machine.execConduitTrigger n s
  | .conduitMessage n m => Sys2Proof.Machine.execConduitMessage n m s
  | .conduitAck n => Sys2Proof.Machine.execConduitAck n s
  | .conduitFree n => Sys2Proof.Machine.execConduitFree n s
  | .apertureRead fn off => Sys2Proof.Machine.execApertureRead fn off s
  | .apertureWrite fn off val ep => Sys2Proof.Machine.execApertureWrite fn off val ep s
  | .functionLevelReset fn => Sys2Proof.Machine.execFunctionLevelReset fn s
  | .instConfig m pairs recs => Sys2Proof.Machine.execInstConfig m pairs recs s
  | .aptMap m entry w2 => Sys2Proof.Machine.execAptMap m entry w2 s
  | .instQuiesce m cancel => Sys2Proof.Machine.execInstQuiesce m cancel s
  | .instanceQuiesced inst => Sys2Proof.Machine.execInstanceQuiesced inst s
  | .instReset m => Sys2Proof.Machine.execInstReset m s
  | .instRemove m => Sys2Proof.Machine.execInstRemove m s
  | .dirtyStart m base => Sys2Proof.Machine.execDirtyStart m base s
  | .dirtyHarvest m first words dest => Sys2Proof.Machine.execDirtyHarvest m first words dest s
  | .dirtyStop m => Sys2Proof.Machine.execDirtyStop m s
  | .countsRead m => Sys2Proof.Machine.execCountsRead m s
  | .logSetup m base log2 mask => Sys2Proof.Machine.execLogSetup m base log2 mask s
  | .linkReturn m w1 => Sys2Proof.Machine.execLinkReturn m w1 s
  | .conduitBind m n fields => Sys2Proof.Machine.execConduitBind m n fields s
  | .conduitUnbind m n => Sys2Proof.Machine.execConduitUnbind m n s
  | .mctpControl req => Sys2Proof.Machine.execMctpControl req s
  | .getVersion ses => Sys2Proof.Machine.execGetVersion ses s
  | .getCapabilities ses => Sys2Proof.Machine.execGetCapabilities ses s
  | .negotiateAlgorithms ses => Sys2Proof.Machine.execNegotiateAlgorithms ses s
  | .getDigests ses => Sys2Proof.Machine.execGetDigests ses s
  | .getCertificate ses slot off len => Sys2Proof.Machine.execGetCertificate ses slot off len s
  | .challenge ses nonce => Sys2Proof.Machine.execChallenge ses nonce s
  | .getMeasurements ses idx nonce => Sys2Proof.Machine.execGetMeasurements ses idx nonce s
  | .keyExchange ses mutAuth exch => Sys2Proof.Machine.execKeyExchange ses mutAuth exch s
  | .finish ses chain verify => Sys2Proof.Machine.execFinish ses chain verify s
  | .heartbeat ses => Sys2Proof.Machine.execHeartbeat ses s
  | .keyUpdate ses => Sys2Proof.Machine.execKeyUpdate ses s
  | .endSession ses => Sys2Proof.Machine.execEndSession ses s
  | .getEncapsulatedRequest ses => Sys2Proof.Machine.execGetEncapsulatedRequest ses s
  | .deliverEncapsulatedResponse ses resp => Sys2Proof.Machine.execDeliverEncapsulatedResponse ses resp s
  | .tenantAssign ses id => Sys2Proof.Machine.execTenantAssign ses id s
  | .tenantQuery ses => Sys2Proof.Machine.execTenantQuery ses s
  | .keyLoad ses slot image key => Sys2Proof.Machine.execKeyLoad ses slot image key s
  | .keyErase ses slot => Sys2Proof.Machine.execKeyErase ses slot s
  | .debugAuth ses dbg => Sys2Proof.Machine.execDebugAuth ses dbg s
  | .retireClear ses die stack pch => Sys2Proof.Machine.execRetireClear ses die stack pch s
  | .rootSet ses idx digest => Sys2Proof.Machine.execRootSet ses idx digest s
  | .wmSet ses wm => Sys2Proof.Machine.execWmSet ses wm s
  | .frostTrigger ses => Sys2Proof.Machine.execFrostTrigger ses s
  | .frostRead ses addr words => Sys2Proof.Machine.execFrostRead ses addr words s
  | .mgtIcecoreRead ses age off len => Sys2Proof.Machine.execMgtIcecoreRead ses age off len s
  | .wcall p => Sys2Proof.Machine.execWcall p s
  | .wret p => Sys2Proof.Machine.execWret p s
  | .secureInterrupt p => Sys2Proof.Machine.execSecureInterrupt p s
  | .monVersion p => Sys2Proof.Machine.execMonVersion p s
  | .pmClaim p => Sys2Proof.Machine.execPmClaim p s
  | .pmRelease p => Sys2Proof.Machine.execPmRelease p s
  | .enclCreate p => Sys2Proof.Machine.execEnclCreate p s
  | .enclAdd p => Sys2Proof.Machine.execEnclAdd p s
  | .enclInit p => Sys2Proof.Machine.execEnclInit p s
  | .enclEnter p => Sys2Proof.Machine.execEnclEnter p s
  | .enclExit p => Sys2Proof.Machine.execEnclExit p s
  | .enclInterruptExit p => Sys2Proof.Machine.execEnclInterruptExit p s
  | .enclDestroy p => Sys2Proof.Machine.execEnclDestroy p s
  | .debugAccess write addr width val snapshot => Sys2Proof.Machine.execDebugAccess write addr width val snapshot s
  | .clockCutRequest w val => Sys2Proof.Machine.execClockCutRequest w val s
  | .powerCutRequest w val => Sys2Proof.Machine.execPowerCutRequest w val s
  | .snowIncrWrite who val => Sys2Proof.Machine.execSnowIncrWrite who val s
  | .snowSlewWrite who val => Sys2Proof.Machine.execSnowSlewWrite who val s
  | .snowStepWrite who val => Sys2Proof.Machine.execSnowStepWrite who val s
  | .relock who => Sys2Proof.Machine.execRelock who s
  | .snowNsRead who half => Sys2Proof.Machine.execSnowNsRead who half s
  | .ptpSyncTimeout why => Sys2Proof.Machine.execPtpSyncTimeout why s
  | .ptpMessage m => Sys2Proof.Machine.execPtpMessage m s
  | .cmpArm who u => Sys2Proof.Machine.execCmpArm who u s
  | .cmpDisarm who u => Sys2Proof.Machine.execCmpDisarm who u s
  | .compareFire u => Sys2Proof.Machine.execCompareFire u s
  | .ttqPush who q => Sys2Proof.Machine.execTtqPush who q s
  | .timedJobPrepare job => Sys2Proof.Machine.execTimedJobPrepare job s
  | .captureEdge c rising => Sys2Proof.Machine.execCaptureEdge c rising s
  | .capInfoRead who c => Sys2Proof.Machine.execCapInfoRead who c s
  | .csi2FrameStart str => Sys2Proof.Machine.execCsi2FrameStart str s
  | .csi2Line str dt pixels crcOk hdrOk => Sys2Proof.Machine.execCsi2Line str dt pixels crcOk hdrOk s
  | .csi2FrameEnd str => Sys2Proof.Machine.execCsi2FrameEnd str s
  | .ethFrameReceive port f => Sys2Proof.Machine.execEthFrameReceive port f s
  | .txQueuePoll q => Sys2Proof.Machine.execTxQueuePoll q s
  | .ethFrameSent port frameId q => Sys2Proof.Machine.execEthFrameSent port frameId q s
  | .tsqInfoRead who port => Sys2Proof.Machine.execTsqInfoRead who port s
  | .gateChange port => Sys2Proof.Machine.execGateChange port s
  | .canFrameReceive n m => Sys2Proof.Machine.execCanFrameReceive n m s
  | .canLaunch n => Sys2Proof.Machine.execCanLaunch n s
  | .canTransmitDone n => Sys2Proof.Machine.execCanTransmitDone n s
  | .canBusOffRecovery n => Sys2Proof.Machine.execCanBusOffRecovery n s
  | .passRingPoll => Sys2Proof.Machine.execPassRingPoll s
  | .mapRingPoll => Sys2Proof.Machine.execMapRingPoll s
  | .tileDispatch => Sys2Proof.Machine.execTileDispatch s
  | .binGrow => Sys2Proof.Machine.execBinGrow s
  | .growPoll => Sys2Proof.Machine.execGrowPoll s
  | .growWaitExpiry => Sys2Proof.Machine.execGrowWaitExpiry s
  | .passBudgetExpiry => Sys2Proof.Machine.execPassBudgetExpiry s
  | .passDone => Sys2Proof.Machine.execPassDone s
  | .eventSlotFree map => Sys2Proof.Machine.execEventSlotFree map s
  | .mapJob => Sys2Proof.Machine.execMapJob s
  | .vfetch core => Sys2Proof.Machine.execVfetch core s
  | .vemit core a => Sys2Proof.Machine.execVemit core a s
  | .rfetch core => Sys2Proof.Machine.execRfetch core s
  | .tex core d a b c imm => Sys2Proof.Machine.execTex core d a b c imm s
  | .pxld core d imm => Sys2Proof.Machine.execPxld core d imm s
  | .pxst core a imm => Sys2Proof.Machine.execPxst core a imm s
  | .pxdone core => Sys2Proof.Machine.execPxdone core s
  | .ray core d a => Sys2Proof.Machine.execRay core d a s
  | .end_ core => Sys2Proof.Machine.execEnd core s
  | .vblankStart head => Sys2Proof.Machine.execVblankStart head s
  | .headLineStart head line fetched => Sys2Proof.Machine.execHeadLineStart head line fetched s
  | .headFrameStart head => Sys2Proof.Machine.execHeadFrameStart head s
  | .coldStart => Sys2Proof.Machine.execColdStart s
  | .deviceReady => Sys2Proof.Machine.execDeviceReady s
  | .recoveryLoad m slot len => Sys2Proof.Machine.execRecoveryLoad m slot len s
  | .modeSet m w1 w2 => Sys2Proof.Machine.execModeSet m w1 w2 s
  | .modeChangeDone => Sys2Proof.Machine.execModeChangeDone s
  | .idleEntry => Sys2Proof.Machine.execIdleEntry s
  | .idleExit core => Sys2Proof.Machine.execIdleExit core s
  | .standbyWake why => Sys2Proof.Machine.execStandbyWake why s
  | .thermEmergSet tj => Sys2Proof.Machine.execThermEmergSet tj s
  | .thermEmergClear tj => Sys2Proof.Machine.execThermEmergClear tj s
  | .powerEmergSet pkg => Sys2Proof.Machine.execPowerEmergSet pkg s
  | .powerEmergClear pkg => Sys2Proof.Machine.execPowerEmergClear pkg s
  | .throttleTimeout => Sys2Proof.Machine.execThrottleTimeout s
  | .emergencyHoldTimer => Sys2Proof.Machine.execEmergencyHoldTimer s
  | .junctionLimit die tj => Sys2Proof.Machine.execJunctionLimit die tj s
  | .fwActivate m slot => Sys2Proof.Machine.execFwActivate m slot s
  | .fwActivationTimeout => Sys2Proof.Machine.execFwActivationTimeout s
  | .nvmStore m region src len => Sys2Proof.Machine.execNvmStore m region src len s
  | .nvmRead m region dest => Sys2Proof.Machine.execNvmRead m region dest s
  | .icecoreWrite m => Sys2Proof.Machine.execIcecoreWrite m s
  | .icecoreRead m age dest => Sys2Proof.Machine.execIcecoreRead m age dest s
  | .icecorePeriodicWrite => Sys2Proof.Machine.execIcecorePeriodicWrite s
  | .icecoreSample tj rails => Sys2Proof.Machine.execIcecoreSample tj rails s
  | .frostArm m val => Sys2Proof.Machine.execFrostArm m val s
  | .frostTrig => Sys2Proof.Machine.execFrostTrig s
  | .frostLatch => Sys2Proof.Machine.execFrostLatch s
  | .safePorstN level => Sys2Proof.Machine.execSafePorstN level s
  | .porstN level => Sys2Proof.Machine.execPorstN level s
  | .perstN level => Sys2Proof.Machine.execPerstN level s
  | .trstN level => Sys2Proof.Machine.execTrstN level s
  | .avsTargetReached die => Sys2Proof.Machine.execAvsTargetReached die s
  | .avsTimeout die => Sys2Proof.Machine.execAvsTimeout die s
  | .safetyWindowOpen task => Sys2Proof.Machine.execSafetyWindowOpen task s
  | .seracPairRejoin pair => Sys2Proof.Machine.execSeracPairRejoin pair s
  | .dieLinkFailure => Sys2Proof.Machine.execDieLinkFailure s
  | .powerLoss => Sys2Proof.Machine.execPowerLoss s
  | .dpHotPlug head up lanes => Sys2Proof.Machine.execDpHotPlug head up lanes s
  | .deskewCalibration rx lanes => Sys2Proof.Machine.execDeskewCalibration rx lanes s
  | .addressAgeing mac vlan => Sys2Proof.Machine.execAddressAgeing mac vlan s

end Sys2Proof.Machine
end

