-- ==== Sys2Proof/Machine/Tick.lean ====
section
/-! DEFINITION. One PCLK cycle, which is what the block does while no command waits (R15, R65, R245, R258, R348): time,
cycle counts and watchdogs go on. -/

namespace Sys2Proof.Machine

/-- CCLK cycles of a die, or HCLK cycles of the render cores (die 4), in PCLK cycle `k` (Table 01.2). -/
def coreClocks (s : State) (d k : Nat) : Nat :=
  if d = 4 then 3
  else if cclkGated s d then 0
  else
    let c := cdivAct s d
    (k + 1) * 24 / c - k * 24 / c

/-- `n` cycles of a core: CORE_CYCLES, and the count since the last checkpoint of a twinned core, while RUNNING. -/
def coreTick (s : State) (core n : Nat) : State :=
  if running s core then
    let s := incWrap s (Reg.CORE_CYCLES core) 64 n
    if twinned s core then updCore s core (fun c => { c with gap := c.gap + n }) else s
  else s

/-- The watchdog of a processor counts one µs. -/
def wdtTick (s : State) (p : Nat) : State := wrn s (Reg.RIME_WDT_LEFT p) (rdn s (Reg.RIME_WDT_LEFT p) - 1)

/-- Snowline's clock or power is cut (Table 12.7). -/
def snowCut (s : State) : Bool := s.power.clkCut.contains 9 || s.power.pwrCut.contains 9

/-- One PCLK cycle while the root PLL is locked. -/
def pclkTick (s : State) : State :=
  if s.clk.locked ∧ hubOn s then
    let k := s.clk.pclk
    let t := if snowCut s then s else snowTick s
    let t := forUpTo 136 (fun n u => coreTick u n (coreClocks s (dieOfCore n) k)) t
    let t := if (k + 1) % 250 = 0 then forUpTo 8 (fun p u => wdtTick u p) t else t
    { t with clk := { t.clk with pclk := k + 1 } }
  else s

end Sys2Proof.Machine
end

