-- ==== Sys2Proof/Machine/Step.lean ====
section
/-! DEFINITION. The step of the block: the command at the front of the queue is run on the state with the queue's rest;
while no command waits, one PCLK cycle passes. -/

namespace Sys2Proof.Machine

/-- One step: the waiting command, or a PCLK cycle (log entry 40). -/
def step (s : State) : Host.Outcome State Fault Refusal :=
  match s.pending with
  | [] => .next (pclkTick s)
  | c :: rest => exec c { s with pending := rest }

/-- The state with the command that a word of the opcode table's bits spells at the front of its queue; no row of the
table gives bits, so the state is unchanged. -/
def State.withFetchWord (s : State) (nbits w : Nat) : State :=
  match decodeTableWord nbits w with
  | some c => { s with pending := c :: s.pending }
  | none => s

end Sys2Proof.Machine
end

