-- ==== Sys2Proof/Safety.lean ====
section
/-! DEFINITION. The terms in which claims about the block are stated: that a command completes, which parts of the
state a command leaves as they were, and the invariant every step keeps. -/

namespace Sys2Proof.Machine

/-- The command completes: it answers a next state, of which `P` holds. -/
def Completes (i : Instr) (s : State) (P : State → Prop) : Prop := ∃ t, exec i s = .next t ∧ P t

/-- Every byte of device memory and every poison bit stands. -/
def SameMem (s t : State) : Prop := ∀ a, getByte t a = getByte s a ∧ poisonAt t a = poisonAt s a

/-- Every register stands but those listed. -/
def SameRegs (s t : State) (l : List Nat) : Prop := ∀ a, a ∉ l → rd t a = rd s a

/-- Nothing of the block changes but registers, and of these none but those listed. -/
def RegsOnly (s t : State) (l : List Nat) : Prop := t = { s with regs := t.regs } ∧ SameRegs s t l

/-- Nothing of the block changes but what core `n` holds beside its registers and its store. -/
def CoreOnly (s t : State) (n : Nat) : Prop :=
  t = { s with cores := t.cores } ∧ ∀ m, m ≠ n → getCore t m = getCore s m

/-- The numbers of a set in ascending order, without repeats. -/
def NatSet.ascending : List Nat → Bool
  | [] => true
  | [_] => true
  | a :: b :: l => decide (a < b) && NatSet.ascending (b :: l)

/-- The canonical form of a state: memory in its canonical form, the poisoned words and the registers that differ from
reset in ascending order. Two states of equal contents are then equal data. -/
def State.canonical (s : State) : Prop :=
  Memory.wf s.mem = true ∧ NatSet.ascending s.poison = true ∧ Tab.sorted s.regs = true

end Sys2Proof.Machine
end

