-- ==== Sys2Proof/WellFormed.lean ====
section
/-! DEFINITION. Which commands are well formed: every unit number names a unit the device has (R13, Tables 00.10,
01.1), every slot field fits its bits (Table 02.3), and a record carried by a command fits its fields. The meanings do
not rest on it: a command with a number no unit has changes nothing the device holds for a unit. -/

namespace Sys2Proof

/-- A world is the normal or the secure one, or one of enclaves 0-7 (R332). -/
def World.wf : World → Bool
  | .normal => true
  | .secure => true
  | .enclave n => decide (n < 8)

/-- A mover channel exists (Table 07.1): 8 in each core, 16 in each cluster, 32 in the hub. -/
def ChanId.wf : ChanId → Bool
  | .core n ch => decide (n < 128) && decide (ch < 8)
  | .cluster c ch => decide (c < 16) && decide (ch < 16)
  | .hub ch => decide (ch < 32)

/-- A requester exists (Table 12.3). -/
def Requester.wf : Requester → Bool
  | .engine n => decide (n < 136)
  | .chan ch _ => ch.wf
  | .rime p w => decide (p < 8) && w.wf
  | .host fn => decide (fn < 17)
  | .serac => true
  | .firn => true
  | .cornice => true
  | .stream => true
  | .conduit => true
  | .debug => true

/-- A Drift label of R205. -/
def Label.wf (l : Label) : Bool := decide (l.cls < 8) && (decide (l.inst ≤ 16) || l.inst == 31)

/-- A core has 64 semaphores, a cluster 256 (R55). -/
def SemId.wf : SemId → Bool
  | .core n i => decide (n < 128) && decide (i < 64)
  | .cluster c i => decide (c < 16) && decide (i < 256)

/-- A log block exists (Table 06.9). -/
def LogId.wf : LogId → Bool
  | .dram k => decide (k < 8)
  | .coreStore n => decide (n < 128)
  | .instrStore n => decide (n < 128)
  | .clusterStore c => decide (c < 16)

/-- An entry comes from one of the four ring pairs of a function (R214). -/
def Ent.wf (e : Ent) : Bool := decide (e.fn < 17) && decide (e.prio < 4)

/-- A mailbox request carries a 5-bit instance number (Table 11.4). -/
def Mbx.wf (m : Mbx) : Bool := decide (m.inst < 32)

/-- The unit of a level (R14). -/
def Level.holds (l : Level) (u : Nat) : Bool :=
  match l with
  | .engine => decide (u < 640)
  | .core => decide (u < 128)
  | .cluster => decide (u < 16)
  | .die => decide (u < 4)
  | .package => u == 0

/-- A flit's fields fit their bits (Table 10.2). -/
def Flit.wf (f : Flit) : Bool :=
  decide (f.lseq < 4096) && decide (f.ackSeq < 4096) && decide (f.vc < 5) && decide (f.kind < 8) && decide (f.conduit < 64)
    && decide (f.dst < 1024) && decide (f.src < 1024) && decide (f.payload.length ≤ 29)

/-- A conduit message is at most one slot of words and its tail (R299, R301). -/
def CndMsg.wf (m : CndMsg) : Bool := decide (m.cipher.length = (m.len + 7) / 8)

/-- A link-map record names a device, a port and at most four lanes (R281, R296). -/
def LinkRec.wf (r : LinkRec) : Bool := decide (r.dev < 1024) && decide (r.port < 8) && decide (r.lanes ≤ 4)

/-- A frame has at most 9,216 bytes, and its VLAN and priority fit their bits (R367, R368). -/
def EthFrame.wf (f : EthFrame) : Bool :=
  decide (f.bytes.length ≤ 9216) && decide (f.vlan < 4096) && decide (f.pcp < 8)

/-- A CAN FD message has at most 64 bytes (R371). -/
def CanMsg.wf (m : CanMsg) : Bool := decide (m.bytes.length ≤ 64)

/-- A command is well formed. -/
def Instr.wf (i : Instr) : Bool :=
  match i with
  | .registerWrite who _ width _ => who.wf && (width == 32 || width == 64)
  | .w1cClear who _ _ _ => who.wf
  | .rcRead who _ _ => who.wf
  | .reg64LowRead who _ => who.wf
  | .rootPllLock => true
  | .rootPllLockLoss => true
  | .clockMonitorWindow _ _ => true
  | .seracClockCheck _ => true
  | .cdivWrite die _ => decide (die < 4)
  | .cclkRestart die => decide (die < 4)
  | .dramRetrainDone die => decide (die < 4)
  | .errorReport => true
  | .errInject who lvl unit _ => who.wf && Level.holds lvl unit
  | .coreStart core => decide (core < 128)
  | .coreAbort core => decide (core < 128)
  | .semaphoreWrite who sem _ => who.wf && sem.wf
  | .bundleDispatch core _ => decide (core < 136)
  | .engineIssue core _ _ => decide (core < 136)
  | .nop core => decide (core < 136)
  | .li core d _ => decide (core < 136) && decide (d < 32)
  | .lui core d _ => decide (core < 136) && decide (d < 32)
  | .add core d a b md _ => decide (core < 136) && decide (d < 32) && decide (a < 32) && decide (b < 32) && decide (md < 16)
  | .sub core d a b md _ => decide (core < 136) && decide (d < 32) && decide (a < 32) && decide (b < 32) && decide (md < 16)
  | .and core d a b md _ => decide (core < 136) && decide (d < 32) && decide (a < 32) && decide (b < 32) && decide (md < 16)
  | .or core d a b md _ => decide (core < 136) && decide (d < 32) && decide (a < 32) && decide (b < 32) && decide (md < 16)
  | .xor core d a b md _ => decide (core < 136) && decide (d < 32) && decide (a < 32) && decide (b < 32) && decide (md < 16)
  | .shl core d a b md _ => decide (core < 136) && decide (d < 32) && decide (a < 32) && decide (b < 32) && decide (md < 16)
  | .shr core d a b md _ => decide (core < 136) && decide (d < 32) && decide (a < 32) && decide (b < 32) && decide (md < 16)
  | .sar core d a b md _ => decide (core < 136) && decide (d < 32) && decide (a < 32) && decide (b < 32) && decide (md < 16)
  | .mul core d a b => decide (core < 136) && decide (d < 32) && decide (a < 32) && decide (b < 32)
  | .min core d a b => decide (core < 136) && decide (d < 32) && decide (a < 32) && decide (b < 32)
  | .max core d a b => decide (core < 136) && decide (d < 32) && decide (a < 32) && decide (b < 32)
  | .cmp core d a b md => decide (core < 136) && decide (d < 32) && decide (a < 32) && decide (b < 32) && decide (md < 16)
  | .mova core d a => decide (core < 136) && decide (d < 32) && decide (a < 32)
  | .movs core d a => decide (core < 136) && decide (d < 32) && decide (a < 32)
  | .adda core d a b md _ => decide (core < 136) && decide (d < 32) && decide (a < 32) && decide (b < 32) && decide (md < 16)
  | .ld core d a _ => decide (core < 136) && decide (d < 32) && decide (a < 32)
  | .st core b a _ => decide (core < 136) && decide (b < 32) && decide (a < 32)
  | .br core _ => decide (core < 136)
  | .brnz core a _ => decide (core < 136) && decide (a < 32)
  | .brz core a _ => decide (core < 136) && decide (a < 32)
  | .loop core a _ => decide (core < 136) && decide (a < 32)
  | .rdcyc core d => decide (core < 136) && decide (d < 32)
  | .rdtime core d => decide (core < 136) && decide (d < 32)
  | .sset core a _ => decide (core < 136) && decide (a < 32)
  | .sread core d _ => decide (core < 136) && decide (d < 32)
  | .swait core _ _ => decide (core < 136)
  | .swaitG core _ _ => decide (core < 136)
  | .semaphoreGrant core _ => decide (core < 136)
  | .ssig core _ _ => decide (core < 136)
  | .barCore core => decide (core < 136)
  | .barCl core _ => decide (core < 136)
  | .barrierRelease cluster id => decide (cluster < 16) && decide (id < 16)
  | .checkpoint core => decide (core < 136)
  | .checkpointGap core => decide (core < 128)
  | .halt core => decide (core < 136)
  | .haltDrained core => decide (core < 136)
  | .coreBudgetExpiry core => decide (core < 128)
  | .mcfg core a => decide (core < 136) && decide (a < 32)
  | .mscale core a b => decide (core < 136) && decide (a < 32) && decide (b < 32)
  | .mzero core t => decide (core < 136) && decide (t < 32)
  | .mmac core t a b c => decide (core < 136) && decide (t < 32) && decide (a < 32) && decide (b < 32) && decide (c < 32)
  | .mld core t a => decide (core < 136) && decide (t < 32) && decide (a < 32)
  | .mout core t d md _ => decide (core < 136) && decide (t < 32) && decide (d < 32) && decide (md < 16)
  | .vld core d a _ => decide (core < 136) && decide (d < 32) && decide (a < 32)
  | .vst core b a _ => decide (core < 136) && decide (b < 32) && decide (a < 32)
  | .vldg core d a b => decide (core < 136) && decide (d < 32) && decide (a < 32) && decide (b < 32)
  | .vbcast core d a md => decide (core < 136) && decide (d < 32) && decide (a < 32) && decide (md < 16)
  | .vadd core d a b md => decide (core < 136) && decide (d < 32) && decide (a < 32) && decide (b < 32) && decide (md < 16)
  | .vsub core d a b md => decide (core < 136) && decide (d < 32) && decide (a < 32) && decide (b < 32) && decide (md < 16)
  | .vmul core d a b md => decide (core < 136) && decide (d < 32) && decide (a < 32) && decide (b < 32) && decide (md < 16)
  | .vmin core d a b md => decide (core < 136) && decide (d < 32) && decide (a < 32) && decide (b < 32) && decide (md < 16)
  | .vmax core d a b md => decide (core < 136) && decide (d < 32) && decide (a < 32) && decide (b < 32) && decide (md < 16)
  | .vfma core d a b c md => decide (core < 136) && decide (d < 32) && decide (a < 32) && decide (b < 32) && decide (c < 32) && decide (md < 16)
  | .vabs core d a md => decide (core < 136) && decide (d < 32) && decide (a < 32) && decide (md < 16)
  | .vneg core d a md => decide (core < 136) && decide (d < 32) && decide (a < 32) && decide (md < 16)
  | .vcmp core d a b md _ => decide (core < 136) && decide (d < 32) && decide (a < 32) && decide (b < 32) && decide (md < 16)
  | .vsel core d a b c md => decide (core < 136) && decide (d < 32) && decide (a < 32) && decide (b < 32) && decide (c < 32) && decide (md < 16)
  | .vshuf core d a b md => decide (core < 136) && decide (d < 32) && decide (a < 32) && decide (b < 32) && decide (md < 16)
  | .vred core d a md _ => decide (core < 136) && decide (d < 32) && decide (a < 32) && decide (md < 16)
  | .vexp2 core d a md => decide (core < 136) && decide (d < 32) && decide (a < 32) && decide (md < 16)
  | .vlog2 core d a md => decide (core < 136) && decide (d < 32) && decide (a < 32) && decide (md < 16)
  | .vrcp core d a md => decide (core < 136) && decide (d < 32) && decide (a < 32) && decide (md < 16)
  | .vrsq core d a md => decide (core < 136) && decide (d < 32) && decide (a < 32) && decide (md < 16)
  | .vcvt core d a md _ => decide (core < 136) && decide (d < 32) && decide (a < 32) && decide (md < 16)
  | .vrope core d a b md => decide (core < 136) && decide (d < 32) && decide (a < 32) && decide (b < 32) && decide (md < 16)
  | .vtld core d t _ => decide (core < 136) && decide (d < 32) && decide (t < 32)
  | .vtst core t a _ => decide (core < 136) && decide (t < 32) && decide (a < 32)
  | .vmovs core d a md _ => decide (core < 136) && decide (d < 32) && decide (a < 32) && decide (md < 16)
  | .dmvStart core ch a => decide (core < 136) && decide (ch < 32) && decide (a < 32)
  | .dmvWait core ch => decide (core < 136) && decide (ch < 32)
  | .dmvStop core ch => decide (core < 136) && decide (ch < 32)
  | .syncMem core => decide (core < 136)
  | .wnRun core a => decide (core < 128) && decide (a < 32)
  | .wnAckWaitGrant core => decide (core < 128)
  | .wnHaloWaitGrant core => decide (core < 128)
  | .wnFinalHaloSettle core => decide (core < 128)
  | .atRun core a => decide (core < 136) && decide (a < 32)
  | .atMerge core a => decide (core < 136) && decide (a < 32)
  | .tcMissServe die page => decide (die < 4) && decide (page < 2 ^ 48)
  | .firnStep e _ _ => e.wf
  | .seqRelease e _ => e.wf
  | .prefixLookup e _ _ _ => e.wf
  | .prefixInsert e _ _ _ => e.wf
  | .firnQuery e _ => e.wf
  | .firnBoundary _ => true
  | .firnCommit _ _ => true
  | .firnGather _ _ => true
  | .firnGatherTimeout _ => true
  | .memoryRead who lab _ _ _ => who.wf && lab.wf
  | .memoryWrite who lab _ _ _ => who.wf && lab.wf
  | .storeFill who die => who.wf && decide (die < 4)
  | .storeFillDone die => decide (die < 4)
  | .mlogClear log _ _ => log.wf
  | .mvStart who ch _ => who.wf && ch.wf
  | .mvStop who ch => who.wf && ch.wf
  | .mvDescriptorFetch ch => ch.wf
  | .mvTrigger ch => ch.wf
  | .mvRequest line => decide (line < 64)
  | .mvCoreDone core ch => decide (core < 128) && decide (ch < 8)
  | .mvReadbackDone ch => ch.wf
  | .driftShareWrite who res cls _ => who.wf && decide (res < 24) && decide (cls < 8)
  | .sqDoorbell fn prio _ => decide (fn < 17) && decide (prio < 4)
  | .cqHeadWrite fn prio _ => decide (fn < 17) && decide (prio < 4)
  | .instanceOpen fn => decide (fn < 17)
  | .entryConsume => true
  | .msixSend fn vec => decide (fn < 17) && decide (vec < 32)
  | .jobRun e _ _ _ _ => e.wf
  | .jobCancel e _ => e.wf
  | .modelLoad e _ _ => e.wf
  | .modelUnload e _ => e.wf
  | .longSuspend e _ => e.wf
  | .longResume e _ => e.wf
  | .longCancel e _ => e.wf
  | .longOpPoint e _ => e.wf
  | .memFill e _ _ _ _ => e.wf
  | .selftest e _ _ _ => e.wf
  | .fwStage e _ _ _ => e.wf
  | .tenantScrub e => e.wf
  | .kvCompact e _ _ => e.wf
  | .queryCounts e => e.wf
  | .kernelEnd _ => true
  | .contextSwitchDone _ => true
  | .fallbackTimer _ => true
  | .wdtKick who p _ => who.wf && decide (p < 8)
  | .watchdogExpiry p _ => decide (p < 8)
  | .rimeRestartComplete p => decide (p < 8)
  | .logEntry proc lvl point _ _ => decide (proc < 8) && decide (lvl < 4) && decide (point < 256)
  | .schedEpoch => true
  | .seracHeartbeat pair _ => decide (pair < 2)
  | .lockstepWindow pair _ _ => decide (pair < 2)
  | .seracInputLatch pair _ => decide (pair < 2)
  | .twinCompare cluster pair => decide (cluster < 16) && decide (pair < 4)
  | .twinAbsentTimeout cluster pair => decide (cluster < 16) && decide (pair < 4)
  | .mismatchDecision => true
  | .taskWindowJudge task => decide (task < 32)
  | .injectionTimeout bit => decide (bit < 10)
  | .selftestSliceStart => true
  | .selftestSliceEnd _ => true
  | .selftestAgeCheck => true
  | .railSample rail _ => decide (rail < 16)
  | .seracFaultResponse => true
  | .dieRestartDone die _ => decide (die < 4)
  | .deviceRestartReady => true
  | .flitReceive port f _ => decide (port < 8) && f.wf
  | .portRetrainDone port _ => decide (port < 8)
  | .portPeerTimeout port => decide (port < 8)
  | .portTrain port _ peerPort _ _ => decide (port < 8) && decide (peerPort < 8)
  | .fmElection _ x y z _ => decide (x < 16) && decide (y < 8) && decide (z < 8)
  | .fmTakeover => true
  | .linkMapDistribute links _ => links.all LinkRec.wf
  | .fabricEpoch => true
  | .staleFlitDiscard => true
  | .returnPrepare port lanes _ _ => decide (port < 8) && decide (lanes < 16)
  | .returnAnswer port _ _ _ => decide (port < 8)
  | .returnCommit port _ => decide (port < 8)
  | .returnAbort port => decide (port < 8)
  | .bondMarkerTimeout port => decide (port < 8)
  | .returnDeadline port => decide (port < 8)
  | .conduitTrigger n => decide (n < 64)
  | .conduitMessage n m => decide (n < 64) && m.wf
  | .conduitAck n => decide (n < 64)
  | .conduitFree n => decide (n < 64)
  | .apertureRead fn _ => decide (fn < 17)
  | .apertureWrite fn _ _ _ => decide (fn < 17)
  | .functionLevelReset fn => decide (fn < 17)
  | .instConfig m pairs recs => m.wf && (decide (pairs ≤ 15) && decide (recs.length ≤ 4))
  | .aptMap m entry _ => m.wf && decide (entry < 64)
  | .instQuiesce m _ => m.wf
  | .instanceQuiesced inst => decide (inst < 16)
  | .instReset m => m.wf
  | .instRemove m => m.wf
  | .dirtyStart m _ => m.wf
  | .dirtyHarvest m _ _ _ => m.wf
  | .dirtyStop m => m.wf
  | .countsRead m => m.wf
  | .logSetup m _ _ _ => m.wf
  | .linkReturn m _ => m.wf
  | .conduitBind m n _ => m.wf && decide (n < 64)
  | .conduitUnbind m n => m.wf && decide (n < 64)
  | .mctpControl _ => true
  | .getVersion ses => decide (ses < 256)
  | .getCapabilities ses => decide (ses < 256)
  | .negotiateAlgorithms ses => decide (ses < 256)
  | .getDigests ses => decide (ses < 256)
  | .getCertificate ses _ _ _ => decide (ses < 256)
  | .challenge ses _ => decide (ses < 256)
  | .getMeasurements ses _ _ => decide (ses < 256)
  | .keyExchange ses _ _ => decide (ses < 256)
  | .finish ses _ _ => decide (ses < 256)
  | .heartbeat ses => decide (ses < 256)
  | .keyUpdate ses => decide (ses < 256)
  | .endSession ses => decide (ses < 256)
  | .getEncapsulatedRequest ses => decide (ses < 256)
  | .deliverEncapsulatedResponse ses _ => decide (ses < 256)
  | .tenantAssign ses _ => decide (ses < 256)
  | .tenantQuery ses => decide (ses < 256)
  | .keyLoad ses slot _ _ => decide (ses < 256) && decide (slot < 32)
  | .keyErase ses slot => decide (ses < 256) && decide (slot < 32)
  | .debugAuth ses _ => decide (ses < 256)
  | .retireClear ses die stack pch => decide (ses < 256) && decide (die < 4) && decide (stack < 8) && decide (pch < 64)
  | .rootSet ses idx _ => decide (ses < 256) && decide (idx < 4)
  | .wmSet ses _ => decide (ses < 256)
  | .frostTrigger ses => decide (ses < 256)
  | .frostRead ses _ _ => decide (ses < 256)
  | .mgtIcecoreRead ses _ _ _ => decide (ses < 256)
  | .wcall p => decide (p < 8)
  | .wret p => decide (p < 8)
  | .secureInterrupt p => decide (p < 8)
  | .monVersion p => decide (p < 8)
  | .pmClaim p => decide (p < 8)
  | .pmRelease p => decide (p < 8)
  | .enclCreate p => decide (p < 8)
  | .enclAdd p => decide (p < 8)
  | .enclInit p => decide (p < 8)
  | .enclEnter p => decide (p < 8)
  | .enclExit p => decide (p < 8)
  | .enclInterruptExit p => decide (p < 8)
  | .enclDestroy p => decide (p < 8)
  | .debugAccess _ _ width _ _ => (width == 32 || width == 64)
  | .clockCutRequest w _ => w.wf
  | .powerCutRequest w _ => w.wf
  | .snowIncrWrite who _ => who.wf
  | .snowSlewWrite who _ => who.wf
  | .snowStepWrite who _ => who.wf
  | .relock who => who.wf
  | .snowNsRead who _ => who.wf
  | .ptpSyncTimeout _ => true
  | .ptpMessage _ => true
  | .cmpArm who u => who.wf && decide (u < 16)
  | .cmpDisarm who u => who.wf && decide (u < 16)
  | .compareFire u => decide (u < 16)
  | .ttqPush who q => who.wf && decide (q < 4)
  | .timedJobPrepare _ => true
  | .captureEdge c _ => decide (c < 8)
  | .capInfoRead who c => who.wf && decide (c < 8)
  | .csi2FrameStart str => decide (str < 128)
  | .csi2Line str dt _ _ _ => decide (str < 128) && decide (dt < 64)
  | .csi2FrameEnd str => decide (str < 128)
  | .ethFrameReceive port f => decide (port < 13) && f.wf
  | .txQueuePoll q => decide (q < 8)
  | .ethFrameSent port frameId _ => decide (port < 13) && decide (frameId < 65536)
  | .tsqInfoRead who port => who.wf && decide (port < 13)
  | .gateChange port => decide (port < 13)
  | .canFrameReceive n m => decide (n < 8) && m.wf
  | .canLaunch n => decide (n < 8)
  | .canTransmitDone n => decide (n < 8)
  | .canBusOffRecovery n => decide (n < 8)
  | .passRingPoll => true
  | .mapRingPoll => true
  | .tileDispatch => true
  | .binGrow => true
  | .growPoll => true
  | .growWaitExpiry => true
  | .passBudgetExpiry => true
  | .passDone => true
  | .eventSlotFree _ => true
  | .mapJob => true
  | .vfetch core => (decide (128 ≤ core) && decide (core < 136))
  | .vemit core a => (decide (128 ≤ core) && decide (core < 136)) && decide (a < 32)
  | .rfetch core => (decide (128 ≤ core) && decide (core < 136))
  | .tex core d a b c _ => (decide (128 ≤ core) && decide (core < 136)) && decide (d < 32) && decide (a < 32) && decide (b < 32) && decide (c < 32)
  | .pxld core d _ => (decide (128 ≤ core) && decide (core < 136)) && decide (d < 32)
  | .pxst core a _ => (decide (128 ≤ core) && decide (core < 136)) && decide (a < 32)
  | .pxdone core => (decide (128 ≤ core) && decide (core < 136))
  | .ray core d a => (decide (128 ≤ core) && decide (core < 136)) && decide (d < 32) && decide (a < 32)
  | .end_ core => (decide (128 ≤ core) && decide (core < 136))
  | .vblankStart head => decide (head < 4)
  | .headLineStart head line _ => decide (head < 4) && decide (line < 65536)
  | .headFrameStart head => decide (head < 4)
  | .coldStart => true
  | .deviceReady => true
  | .recoveryLoad m _ _ => m.wf
  | .modeSet m _ _ => m.wf
  | .modeChangeDone => true
  | .idleEntry => true
  | .idleExit core => decide (core < 128)
  | .standbyWake _ => true
  | .thermEmergSet _ => true
  | .thermEmergClear _ => true
  | .powerEmergSet _ => true
  | .powerEmergClear _ => true
  | .throttleTimeout => true
  | .emergencyHoldTimer => true
  | .junctionLimit die _ => decide (die < 5)
  | .fwActivate m _ => m.wf
  | .fwActivationTimeout => true
  | .nvmStore m region _ _ => m.wf && decide (region < 16)
  | .nvmRead m region _ => m.wf && decide (region < 16)
  | .icecoreWrite m => m.wf
  | .icecoreRead m _ _ => m.wf
  | .icecorePeriodicWrite => true
  | .icecoreSample _ _ => true
  | .frostArm m _ => m.wf
  | .frostTrig => true
  | .frostLatch => true
  | .safePorstN _ => true
  | .porstN _ => true
  | .perstN _ => true
  | .trstN _ => true
  | .avsTargetReached die => decide (die < 4)
  | .avsTimeout die => decide (die < 4)
  | .safetyWindowOpen task => decide (task < 32)
  | .seracPairRejoin pair => decide (pair < 2)
  | .dieLinkFailure => true
  | .powerLoss => true
  | .dpHotPlug head _ lanes => decide (head < 4) && decide (lanes ≤ 4)
  | .deskewCalibration rx lanes => (decide (rx < 16) && decide (lanes ≤ 4))
  | .addressAgeing _ vlan => decide (vlan < 4096)

end Sys2Proof
end

