-- ==== Sys2Proof/Certificates/Slice0/Obligations.lean ====
section
/-! DEFINITION. The statements about the block, for the provers: what each command does by the rules of spec/, what it
leaves as it was, and what every step keeps. Each says of its commands that they complete. -/

open Sys2Proof Sys2Proof.Machine

/-! ### The front end's scalar instructions (02) -/

/-- Sd takes `w`, or nothing where d is 0 (S0 reads 0 and discards writes); every other S register, everything else
the core holds, every other core and every other part of the block stands. -/
def ScalarResult (i : Instr) (s : State) (n d : Nat) (w : PWord) : Prop :=
  Completes i s (fun t =>
    (∀ j, readS t n j = if j = d ∧ d ≠ 0 then w else readS s n j) ∧
    getCore t n = { getCore s n with s := (getCore t n).s } ∧ CoreOnly s t n)

/-- Table 02.4, register forms: the result of two S registers, poisoned when an operand is. -/
def ScalarArithmetic : Prop :=
  ∀ (s : State) (n d a b : Nat), d < 32 → a < 32 → b < 32 →
    let x := readS s n a
    let y := readS s n b
    let p := x.p || y.p
    ScalarResult (.add n d a b 0 0) s n d ⟨x.v + y.v, p⟩ ∧
    ScalarResult (.sub n d a b 0 0) s n d ⟨x.v - y.v, p⟩ ∧
    ScalarResult (.and n d a b 0 0) s n d ⟨x.v &&& y.v, p⟩ ∧
    ScalarResult (.or n d a b 0 0) s n d ⟨x.v ||| y.v, p⟩ ∧
    ScalarResult (.xor n d a b 0 0) s n d ⟨x.v ^^^ y.v, p⟩ ∧
    ScalarResult (.shl n d a b 0 0) s n d ⟨x.v <<< (y.v.toNat % 64), p⟩ ∧
    ScalarResult (.shr n d a b 0 0) s n d ⟨x.v >>> (y.v.toNat % 64), p⟩ ∧
    ScalarResult (.sar n d a b 0 0) s n d ⟨x.v.sshiftRight (y.v.toNat % 64), p⟩ ∧
    ScalarResult (.mul n d a b) s n d ⟨x.v * y.v, p⟩ ∧
    ScalarResult (.min n d a b) s n d ⟨BitVec.ofInt 64 (Min.min x.v.toInt y.v.toInt), p⟩ ∧
    ScalarResult (.max n d a b) s n d ⟨BitVec.ofInt 64 (Max.max x.v.toInt y.v.toInt), p⟩ ∧
    ScalarResult (.cmp n d a b 0) s n d ⟨if x.v = y.v then 1 else 0, p⟩ ∧
    ScalarResult (.cmp n d a b 1) s n d ⟨if x.v = y.v then 0 else 1, p⟩ ∧
    ScalarResult (.cmp n d a b 2) s n d ⟨if x.v.toInt < y.v.toInt then 1 else 0, p⟩ ∧
    ScalarResult (.cmp n d a b 3) s n d ⟨if y.v.toInt ≤ x.v.toInt then 1 else 0, p⟩ ∧
    ScalarResult (.cmp n d a b 4) s n d ⟨if x.v.toNat < y.v.toNat then 1 else 0, p⟩ ∧
    ScalarResult (.cmp n d a b 5) s n d ⟨if y.v.toNat ≤ x.v.toNat then 1 else 0, p⟩

/-- Table 02.4, MOD[0] = 1: the sign-extended immediate is the second operand. -/
def ScalarImmediates : Prop :=
  ∀ (s : State) (n d a : Nat) (imm : BitVec 32), d < 32 → a < 32 →
    let x := readS s n a
    let k := imm.signExtend 64
    ScalarResult (.add n d a 0 1 imm) s n d ⟨x.v + k, x.p⟩ ∧
    ScalarResult (.sub n d a 0 1 imm) s n d ⟨x.v - k, x.p⟩ ∧
    ScalarResult (.and n d a 0 1 imm) s n d ⟨x.v &&& k, x.p⟩ ∧
    ScalarResult (.or n d a 0 1 imm) s n d ⟨x.v ||| k, x.p⟩ ∧
    ScalarResult (.xor n d a 0 1 imm) s n d ⟨x.v ^^^ k, x.p⟩ ∧
    ScalarResult (.shl n d a 0 1 imm) s n d ⟨x.v <<< (k.toNat % 64), x.p⟩ ∧
    ScalarResult (.shr n d a 0 1 imm) s n d ⟨x.v >>> (k.toNat % 64), x.p⟩ ∧
    ScalarResult (.sar n d a 0 1 imm) s n d ⟨x.v.sshiftRight (k.toNat % 64), x.p⟩ ∧
    ScalarResult (.li n d imm) s n d ⟨k, false⟩ ∧
    ScalarResult (.lui n d imm) s n d ⟨imm ++ (readS s n d).v.truncate 32, (readS s n d).p⟩

/-- Scalar arithmetic on registers and on immediates together. -/
def Obligations.ScalarOperations : Prop := ScalarArithmetic ∧ ScalarImmediates

/-- Ad takes `w`; every other A register, everything else the core holds and every other part of the block stands. -/
def AddressResult (i : Instr) (s : State) (n d : Nat) (w : PWord) : Prop :=
  Completes i s (fun t =>
    (∀ j, readA t n j = if j = d then w else readA s n j) ∧
    getCore t n = { getCore s n with a := (getCore t n).a } ∧ CoreOnly s t n)

/-- Table 02.4: moves between the files, address sums, the cycle and time counters, and NOP, on a core that is not the
secondary of a twin pair. -/
def Obligations.ScalarMoves : Prop :=
  ∀ (s : State) (n d a b : Nat) (imm : BitVec 32), a < 32 → b < 32 →
    Completes (.nop n) s (fun t => t = s) ∧
    (d < 16 → AddressResult (.mova n d a) s n d (readS s n a)) ∧
    (d < 16 → a < 16 → AddressResult (.adda n d a b 0 0) s n d
      ⟨(readA s n a).v + (readS s n b).v, (readA s n a).p || (readS s n b).p⟩) ∧
    (d < 16 → a < 16 → AddressResult (.adda n d a 0 1 imm) s n d
      ⟨(readA s n a).v + imm.signExtend 64, (readA s n a).p⟩) ∧
    (d < 32 → a < 16 → ScalarResult (.movs n d a) s n d (readA s n a)) ∧
    (d < 32 → ScalarResult (.rdcyc n d) s n d ⟨rd s (Reg.CORE_CYCLES n), false⟩) ∧
    (d < 32 → twinned s n = false → ScalarResult (.rdtime n d) s n d ⟨rd s Reg.SNOW_NS, false⟩)

/-- The effective address Aa + imm of LD and ST, wrapped at the store's size and aligned (R39, Table 02.4). -/
def scalarAddr (s : State) (n a : Nat) (imm : BitVec 32) : Nat :=
  csAddr n ((readA s n a).v + imm.signExtend 64).toNat 8

/-- Table 02.4: LD reads one core-store word with its poison; ST writes one and no other byte. A twinned core also
folds the address and the word into lane 0 of its signature (R257). -/
def Obligations.ScalarLoadStore : Prop :=
  ∀ (s : State) (n d a b : Nat) (imm : BitVec 32), d < 32 → a < 16 → b < 32 → (readA s n a).p = false →
    let addr := scalarAddr s n a imm
    ScalarResult (.ld n d a imm) s n d (getWord s addr) ∧
    (twinned s n = false → Completes (.st n b a imm) s (fun t =>
      t = { s with mem := t.mem, poison := t.poison } ∧
      (getWord t addr).v = (readS s n b).v ∧ poisonAt t addr = (readS s n b).p ∧
      ∀ x, ¬ (addr ≤ x ∧ x < addr + 8) → getByte t x = getByte s x)) ∧
    (twinned s n = true → (readS s n b).p = false → Completes (.st n b a imm) s (fun t =>
      (getWord t addr).v = (readS s n b).v ∧ t.regs = s.regs ∧
      (∀ x, ¬ (addr ≤ x ∧ x < addr + 8) → getByte t x = getByte s x) ∧
      Tab.get 0 (getCore t n).lanes 0 = crc64 (Tab.get 0 (getCore s n).lanes 0)
        (bytesLE 6 (((readA s n a).v + imm.signExtend 64).toNat % 0x100000 / 8 * 8) ++ bytesLE 8 (readS s n b).v.toNat)))

/-- The bundle index `k` bundles from `pc` in an instruction store of 2,048 bundles (R40). -/
def bundleAt (pc : Nat) (k : Int) : Nat := ((pc + k) % 2048).toNat

/-- R48: BR always branches, BRNZ and BRZ on their condition, LOOP enters its body with one pass less to come or skips
it for a count of 0. Nothing but CORE_PC and the loops in progress changes. -/
def Obligations.Branches : Prop :=
  ∀ (s : State) (n a : Nat) (imm : BitVec 32), a < 32 → (readS s n a).p = false →
    let pc := getPc s n
    let x := (readS s n a).v
    let goes (i : Instr) (p : Nat) : Prop :=
      Completes i s (fun t => getPc t n = p ∧ RegsOnly s t [Reg.CORE_PC n])
    goes (.br n imm) (bundleAt pc imm.toInt) ∧
    (x ≠ 0 → goes (.brnz n a imm) (bundleAt pc imm.toInt)) ∧
    (x = 0 → Completes (.brnz n a imm) s (fun t => t = s)) ∧
    (x = 0 → goes (.brz n a imm) (bundleAt pc imm.toInt)) ∧
    (x ≠ 0 → Completes (.brz n a imm) s (fun t => t = s)) ∧
    (1 ≤ imm.toNat → imm.toNat ≤ 2047 →
      (x.toNat % 2 ^ 32 = 0 → goes (.loop n a imm) (bundleAt pc (1 + imm.toNat))) ∧
      (x.toNat % 2 ^ 32 ≠ 0 → Completes (.loop n a imm) s (fun t => getPc t n = bundleAt pc 1 ∧
        (getCore t n).loops = ⟨bundleAt pc 1, bundleAt pc imm.toNat, x.toNat % 2 ^ 32 - 1⟩ :: (getCore s n).loops ∧
        SameRegs s t [Reg.CORE_PC n] ∧ t.mem = s.mem)))

/-- R27: a poisoned address, condition, count or semaphore value has no effect; the core records UC with SOURCE 0x21,
reports it and stops issue with UC_STOP. -/
def PoisonedOperandsStop : Prop :=
  ∀ (s : State) (n d a b : Nat) (imm : BitVec 32), n < 128 → d < 32 → a < 16 → b < 32 →
    let stops (i : Instr) (addr : Nat) : Prop := Completes i s (fun t =>
      t.mem = s.mem ∧ (∀ j, readS t n j = readS s n j) ∧ (getCore t n).stopped = true ∧
      rdb t (Reg.CORE_STATUS n) 6 = true ∧ rdb t (Reg.ERR_STATUS .core n) 2 = true ∧
      rdf t (Reg.ERR_STATUS .core n) 23 16 = 0x21 ∧
      t.reports = s.reports ++ [⟨.core, n, .uc, 0x21, addr, false⟩])
    ((readA s n a).p = true → stops (.ld n d a imm) 0 ∧ stops (.st n b a imm) 0) ∧
    ((readS s n b).p = true → stops (.brnz n b imm) (getPc s n) ∧ stops (.brz n b imm) (getPc s n) ∧
      (1 ≤ imm.toNat → imm.toNat ≤ 2047 → stops (.loop n b imm) (getPc s n)) ∧
      (imm.toNat < 64 → stops (.sset n b imm) 0))

/-- R66: an undefined encoding executes as NOP and sets BADOP; the core goes on. -/
def UndefinedEncodings : Prop :=
  ∀ (s : State) (n d a b md : Nat) (imm : BitVec 32), n < 136 → 2 ≤ md →
    let bad (i : Instr) : Prop := Completes i s (fun t =>
      rdb t (Reg.CORE_STATUS n) 4 = true ∧ RegsOnly s t [Reg.CORE_STATUS n, Reg.CORE_EVCNT n] ∧
      (rd t (Reg.CORE_EVCNT n)).toNat = ((rd s (Reg.CORE_EVCNT n)).toNat + 1) % 2 ^ 32)
    bad (.add n d a b md imm) ∧ bad (.sub n d a b md imm) ∧ bad (.shl n d a b md imm) ∧ bad (.adda n d a b md imm) ∧
    (6 ≤ md → bad (.cmp n d a b md)) ∧ (7 ≤ md → bad (.vadd n d a b md) ∧ bad (.vbcast n d a md)) ∧
    (32 ≤ d → bad (.li n d imm)) ∧ (8 ≤ d → bad (.mzero n d))

/-- Where a core's instruction stops: on poisoned operands, and on an encoding the ISA does not define. -/
def Obligations.CoreStops : Prop := PoisonedOperandsStop ∧ UndefinedEncodings

/-- A semaphore operand is defined (R55): reserved bits 0, a core semaphore below 64, and for SWAIT and SSIG a count. -/
def semImm (imm : BitVec 32) (count : Bool) : Prop :=
  (imm.getLsbD 8 = true ∨ imm.toNat % 256 < 64) ∧
    (if count then imm.toNat / 512 % 128 = 0 ∧ imm.toNat / 65536 ≠ 0 else imm.toNat / 512 = 0)

/-- R55-R59 on a core that is not twinned: SSIG adds and saturates at 0xFFFF with SEM_SAT, SSET and SEMAPHORE_WRITE
set, SREAD reads. -/
def SemaphoreSignals : Prop :=
  ∀ (s : State) (n d a : Nat) (u : EUnit) (imm : BitVec 32) (val : BitVec 16) (who : Requester) (sem : SemId),
    d < 32 → a < 32 → twinned s n = false →
    let x := semOf n imm
    let k := imm.toNat / 65536
    (semImm imm true → (u = .cdm → cdmDone s n = true) → semGet s x + k ≤ 0xFFFF →
      Completes (.ssig n u imm) s (fun t => semGet t x = semGet s x + k ∧ RegsOnly s t [semReg x])) ∧
    (n < 128 → semImm imm true → (u = .cdm → cdmDone s n = true) → 0xFFFF < semGet s x + k →
      Completes (.ssig n u imm) s (fun t => semGet t x = 0xFFFF ∧ rdb t (Reg.CORE_STATUS n) 3 = true ∧
        rdf t (Reg.CORE_STATUS n) 23 16 = imm.toNat % 256 ∧
        RegsOnly s t [semReg x, Reg.CORE_STATUS n, Reg.CORE_EVCNT n])) ∧
    (semImm imm false → (readS s n a).p = false →
      Completes (.sset n a imm) s (fun t => semGet t x = (readS s n a).v.toNat % 65536 ∧ RegsOnly s t [semReg x])) ∧
    (semImm imm false → ScalarResult (.sread n d imm) s n d ⟨BitVec.ofNat 64 (semGet s x), false⟩) ∧
    (semWriteOk s who sem = true →
      Completes (.semaphoreWrite who sem val) s (fun t => semGet t sem = val.toNat ∧ RegsOnly s t [semReg sem]))

/-- R55 on a core that is not twinned: a wait is granted once the semaphore holds its count, SWAIT taking the count
and SWAIT.G leaving it; until then the front end holds dispatch, or the instruction stays at the head of its engine's
queue; SEMAPHORE_GRANT looks at a waiting front end again. -/
def SemaphoreWaits : Prop :=
  ∀ (s : State) (n : Nat) (u : EUnit) (imm : BitVec 32) (keep : Bool), semImm imm true → twinned s n = false →
    let x := semOf n imm
    let k := imm.toNat / 65536
    let waits (i : Instr) (g : Bool) : Prop :=
      (k ≤ semGet s x → Completes i s (fun t =>
        semGet t x = (if g then semGet s x else semGet s x - k) ∧ SameRegs s t [semReg x] ∧ t.mem = s.mem ∧
        (u = .front → (getCore t n).hold = .none))) ∧
      (semGet s x < k → Completes i s (fun t =>
        CoreOnly s t n ∧
        (u = .front → (getCore t n).hold = .sem imm g) ∧
        (u ≠ .front → ∃ q, queueOf (getCore t n) u = q :: queueOf (getCore s n) u ∧ (decodeSlot q.slot).op = 0x22)))
    waits (.swait n u imm) false ∧ waits (.swaitG n u imm) true ∧
    ((getCore s n).hold = .sem imm keep → k ≤ semGet s x → Completes (.semaphoreGrant n .front) s (fun t =>
      semGet t x = (if keep then semGet s x else semGet s x - k) ∧ (getCore t n).hold = .none ∧
      SameRegs s t [semReg x] ∧ t.mem = s.mem))

/-- Signals and waits of semaphores together. -/
def Obligations.Semaphores : Prop := SemaphoreSignals ∧ SemaphoreWaits

/-- R60, R61: BAR.CORE holds dispatch until the core has drained; BAR.CL then records the core's arrival with its mask
and its own position and holds the core; BARRIER_RELEASE frees a barrier all of whose named positions have arrived. -/
def Barriers : Prop :=
  ∀ (s : State) (n c id : Nat) (imm : BitVec 32),
    (drained s n = true → Completes (.barCore n) s (fun t => t = s)) ∧
    (drained s n = false → Completes (.barCore n) s (fun t =>
      CoreOnly s t n ∧ getCore t n = { getCore s n with hold := .barCore })) ∧
    (imm.toNat < 65536 → imm.toNat / 16 % 16 = 0 → imm.toNat / 256 ≠ 0 → twinned s n = false →
      (drained s n = false → Completes (.barCl n imm) s (fun t =>
        CoreOnly s t n ∧ getCore t n = { getCore s n with hold := .barCl imm })) ∧
      (drained s n = true → Completes (.barCl n imm) s (fun t =>
        (getCore t n).hold = .barWait (imm.toNat % 16) ∧ t.regs = s.regs ∧ t.mem = s.mem ∧
        Tab.get [] (getClu t (n / 8)).barriers (imm.toNat % 16) =
          Tab.get [] (getClu s (n / 8)).barriers (imm.toNat % 16) ++
            [⟨n, (getCore s n).pos, (imm.toNat / 256) ||| 2 ^ (getCore s n).pos⟩]))) ∧
    (let l := Tab.get [] (getClu s c).barriers id;
      (barComplete l = false → Completes (.barrierRelease c id) s (fun t => t = s)) ∧
      (barComplete l = true → (∀ e ∈ l, twinned s e.core = false) → Completes (.barrierRelease c id) s (fun t =>
        Tab.get [] (getClu t c).barriers id = [] ∧ (∀ e ∈ l, (getCore t e.core).hold = .none) ∧
        (∀ m, (∀ e ∈ l, e.core ≠ m) → getCore t m = getCore s m) ∧ t.regs = s.regs ∧ t.mem = s.mem)))

/-- R258, R68: CHECKPOINT submits the signature of a twinned core that has drained and clears its lanes, and does
nothing on a core that is not twinned; a GAP checkpoint comes after 65,537 cycles without one; HALT holds dispatch,
and once the core has drained HALTED stands, RUNNING does not, and the die controller is told. -/
def CheckpointsAndHalt : Prop :=
  ∀ (s : State) (n : Nat), n < 128 →
    let submits (i : Instr) (gap : Bool) : Prop := Completes i s (fun t =>
      (getClu t (n / 8)).subs =
        (getClu s (n / 8)).subs ++ [⟨n, (getCore s n).ckNum, signature (getCore s n), gap⟩] ∧
      (getCore t n).lanes = [] ∧ (getCore t n).ckNum = (getCore s n).ckNum + 1 ∧ (getCore t n).gap = 0 ∧
      t.regs = s.regs ∧ t.mem = s.mem)
    (twinned s n = false → Completes (.checkpoint n) s (fun t => t = s)) ∧
    (twinned s n = true → drained s n = true → submits (.checkpoint n) false) ∧
    (twinned s n = true → drained s n = false → Completes (.checkpoint n) s (fun t =>
      CoreOnly s t n ∧ getCore t n = { getCore s n with hold := .checkpoint })) ∧
    (twinned s n = true → running s n = true → 65537 ≤ (getCore s n).gap → submits (.checkpointGap n) true) ∧
    Completes (.halt n) s (fun t => CoreOnly s t n ∧ getCore t n = { getCore s n with hold := .halt }) ∧
    ((getCore s n).hold = .halt → drained s n = true → running s n = true → twinned s n = false → jobOn s n = none →
      Completes (.haltDrained n) s (fun t =>
        running t n = false ∧ rdb t (Reg.CORE_STATUS n) 1 = true ∧ (getCore t n).hold = .none ∧
        t.out = .notice "die controller" "HALTED" n :: s.out ∧ t.mem = s.mem ∧
        SameRegs s t [Reg.CORE_STATUS n, Reg.CORE_EVCNT n]))

/-- Barriers, checkpoints and the end of a program together. -/
def Obligations.BarriersAndHalt : Prop := Barriers ∧ CheckpointsAndHalt

/-- The kernel of core `n` has ended with the flag of CORE_STATUS: its queues and waits are dropped, its barrier
arrivals withdrawn, its pending checkpoints discarded, memory stands. -/
def KernelEnded (s t : State) (n flag : Nat) : Prop :=
  running t n = false ∧ rdb t (Reg.CORE_STATUS n) flag = true ∧ (getCore t n).hold = .none ∧
  (getCore t n).qm = [] ∧ (getCore t n).qv = [] ∧ (getCore t n).qw = [] ∧ (getCore t n).qa = [] ∧
  (getCore t n).qc = [] ∧ (∀ e ∈ (getClu t (n / 8)).subs, e.core ≠ n) ∧
  (∀ b, ∀ e ∈ Tab.get [] (getClu t (n / 8)).barriers b, e.core ≠ n) ∧ t.mem = s.mem

/-- R38, R65, R70: START gives the core its start state (every register 0 but S1-S8, which take CORE_ARG), the
counters and the entry, and is ignored while a kernel runs; ABORT and the expiry of the budget end the kernel with
ABORTED or OVERRUN, drop its queues and withdraw its barrier arrival. -/
def Obligations.KernelStartAndEnd : Prop :=
  ∀ (s : State) (n i : Nat), n < 128 →
    (running s n = true → Completes (.coreStart n) s (fun t => t = s)) ∧
    (running s n = false → s.serac.slice = none → Completes (.coreStart n) s (fun t =>
      running t n = true ∧ rd t (Reg.CORE_CYCLES n) = 0 ∧ getPc t n = rdf s (Reg.CORE_ENTRY n) 10 0 ∧
      (1 ≤ i → i ≤ 8 → readS t n i = ⟨rd s (Reg.CORE_ARG n (i - 1)), false⟩) ∧
      (9 ≤ i → readS t n i = ⟨0, false⟩) ∧ readA t n i = ⟨0, false⟩ ∧ readV t n i = {} ∧ readT t n i = {} ∧
      (getCore t n).mode = ⟨1, 1, true, none, none⟩ ∧ (getCore t n).stopped = false ∧ t.mem = s.mem ∧
      SameRegs s t [Reg.CORE_STATUS n, Reg.CORE_CYCLES n, Reg.CORE_PC n, Reg.PWR_MODE])) ∧
    (running s n = false → Completes (.coreAbort n) s (fun t => t = s)) ∧
    (running s n = true → Completes (.coreAbort n) s (fun t => KernelEnded s t n 5)) ∧
    (running s n = true → jobOn s n = none → rd s (Reg.CORE_BUDGET n) ≠ 0 →
      (rd s (Reg.CORE_BUDGET n)).toNat ≤ (rd s (Reg.CORE_CYCLES n)).toNat →
      Completes (.coreBudgetExpiry n) s (fun t => KernelEnded s t n 2 ∧ t.out = .notice "die controller" "OVERRUN" n :: s.out))

/-- R41-R45: a bundle is dispatched only while its kernel runs, nothing holds the front end and every target queue has
room; its M slot then stands in the MXE's queue with its operands as captured and the program counter has moved on. An
engine runs the head of its queue, or leaves it there while it has to wait. A fault at dispatch or issue stops the
core. -/
def Obligations.DispatchAndIssue : Prop :=
  ∀ (s : State) (n : Nat) (w : Word) (q : QEntry) (rest : List QEntry) (src : Nat), n < 128 →
    (mayDispatch s n = false → Completes (.bundleDispatch n .none) s (fun t => t = s)) ∧
    (mayDispatch s n = true → (getCore s n).hold = .none → (getCore s n).loops = [] →
      fetchBundle s n (getPc s n) = [⟨0, false⟩, ⟨w, false⟩, ⟨0, false⟩, ⟨0, false⟩] → w.toNat % 256 ≠ 0 →
      ((getCore s n).qm.length < 16 → Completes (.bundleDispatch n .none) s (fun t =>
        (getCore t n).qm = (getCore s n).qm ++ [capture s n .m (decodeSlot w)] ∧
        getPc t n = (getPc s n + 1) % 2048 ∧ SameRegs s t [Reg.CORE_PC n] ∧ t.mem = s.mem)) ∧
      (16 ≤ (getCore s n).qm.length → Completes (.bundleDispatch n .none) s (fun t => t = s))) ∧
    (mayDispatch s n = true → (getCore s n).hold = .none →
      Completes (.bundleDispatch n .regParity) s (fun t =>
        (getCore t n).stopped = true ∧ rdf t (Reg.ERR_STATUS .core n) 23 16 = 0x25 ∧ t.mem = s.mem)) ∧
    (mayIssue s n .mxe = true → (getCore s n).qm = q :: rest →
      (∀ t', engRun (updCore s n (fun c => { c with qm := rest })) n .mxe q = some t' →
        Completes (.engineIssue n .mxe .none) s (fun t => t = t')) ∧
      (engRun (updCore s n (fun c => { c with qm := rest })) n .mxe q = none →
        Completes (.engineIssue n .mxe .none) s (fun t => t = s)) ∧
      (src < 256 → Completes (.engineIssue n .mxe (.fault src false)) s (fun t =>
        (getCore t n).stopped = true ∧ (getCore t n).qm = [] ∧ t.mem = s.mem ∧
        rdf t (Reg.ERR_STATUS .engine (5 * n)) 23 16 = src)))

/-! ### The matrix engine (03) -/

/-- The operand format pairs of Table 03.3, by accumulator. -/
def formatPair (a b : Nat) (int : Bool) : Prop :=
  (a ≤ 3 ∧ b ≤ 3) ∨
  (int = false ∧ ((5 ≤ a ∧ a ≤ 11 ∧ 5 ≤ b ∧ b ≤ 11) ∨ (13 ≤ a ∧ a ≤ 18 ∧ 13 ≤ b ∧ b ≤ 18) ∨
    (b = 19 ∧ a ∈ [0, 1, 5, 8, 9, 10, 11, 13, 16, 17, 18])))

/-- R84, R85, R88: MCFG sets the formats and the accumulator of a pair Table 03.3 allows on a core whose image declares
them, and is a NOP with BADOP for any other; MSCALE sets the bases of the scale streams; MZERO clears one tile. -/
def Obligations.MatrixMode : Prop :=
  ∀ (s : State) (n a b tile : Nat) (fa fb : Nat) (int : Bool), a < 32 → b < 16 → tile < 8 → fa < 32 → fb < 32 →
    let cfg := (readS s n a).v
    let c := getCore s n
    ((readS s n a).p = false → cfg = BitVec.ofNat 64 (fa + 32 * fb + if int then 1024 else 0) →
      (formatPair fa fb int → (∀ w, c.formats = some w → w.getLsbD fa = true ∧ w.getLsbD fb = true) →
        Completes (.mcfg n a) s (fun t => CoreOnly s t n ∧
          getCore t n = { c with mode := { c.mode with fa := fa, fb := fb, accInt := int } })) ∧
      (¬ formatPair fa fb int → Completes (.mcfg n a) s (fun t =>
        RegsOnly s t [Reg.CORE_STATUS n, Reg.CORE_EVCNT n] ∧ rdb t (Reg.CORE_STATUS n) 4 = true))) ∧
    (a < 16 → (readA s n a).p = false → (readA s n b).p = false → Completes (.mscale n a b) s (fun t =>
      CoreOnly s t n ∧ getCore t n = { c with mode := { c.mode with
        scaleA := some ((readA s n a).v.toNat % 2 ^ 20 / 64 * 64),
        scaleB := some ((readA s n b).v.toNat % 2 ^ 20 / 64 * 64) } })) ∧
    Completes (.mzero n tile) s (fun t => CoreOnly s t n ∧ getCore t n = { c with t := (getCore t n).t } ∧
      ∀ k, readT t n k = if k = tile then {} else readT s n k)

/-- Cell (i, j) of an accumulator tile. -/
def cell (x : Tile) (i j : Nat) : BitVec 32 := x.cells.getD (32 * i + j) 0

/-- The signed INT8 element at byte `k` of a stream that starts at a core-store address. -/
def int8At (s : State) (n base k : Nat) : Int := (getByte s (coreStoreBase n + (base + k) % 2 ^ 20)).toInt

/-- R87, R90, R92 for INT8 operands and the INT32 accumulator: MMAC adds to every cell (i, j) the sum over k of
A[k][i] × B[k][j], modulo 2^32, and touches no other tile and nothing else of the block. -/
def Obligations.MmacIntegerProduct : Prop :=
  ∀ (s : State) (n tile a b c : Nat), tile < 8 → a < 16 → b < 16 → c < 32 →
    (readA s n a).p = false → (readA s n b).p = false → (readS s n c).p = false →
    (getCore s n).mode.fa = 1 → (getCore s n).mode.fb = 1 → (getCore s n).mode.accInt = true →
    let aa := (readA s n a).v.toNat % 2 ^ 20 / 64 * 64
    let ab := (readA s n b).v.toNat % 2 ^ 20 / 64 * 64
    let steps := min ((readS s n c).v.toNat % 2 ^ 17) 65536
    Completes (.mmac n tile a b c) s (fun t =>
      (∀ i j, i < 64 → j < 32 → cell (readT t n tile) i j = cell (readT s n tile) i j +
        BitVec.ofInt 32 (((List.range steps).map (fun k =>
          int8At s n aa (64 * k + i) * int8At s n ab (32 * k + j))).sum)) ∧
      (∀ k, k ≠ tile → readT t n k = readT s n k) ∧
      getCore t n = { getCore s n with t := (getCore t n).t } ∧ CoreOnly s t n)

/-- R89, R93, R94: MLD fills a tile with 64 × 32 cells of the core store in row order; MOUT to INT32 with shift 0
writes an INT32 tile's cells in row order and no other byte. -/
def Obligations.TileLoadStore : Prop :=
  ∀ (s : State) (n tile a : Nat) (md : Nat), tile < 8 → a < 16 → (readA s n a).p = false →
    let base := (readA s n a).v.toNat % 2 ^ 20 / 64 * 64
    (Completes (.mld n tile a) s (fun t => CoreOnly s t n ∧
      (∀ i j, i < 64 → j < 16 →
        cell (readT t n tile) i (2 * j) = (csRead s n (base + 128 * i + 8 * j)).v.truncate 32 ∧
        cell (readT t n tile) i (2 * j + 1) = ((csRead s n (base + 128 * i + 8 * j)).v >>> 32).truncate 32) ∧
      (∀ k, k ≠ tile → readT t n k = readT s n k))) ∧
    (n < 128 → md < 4 → twinned s n = false → (getCore s n).mode.accInt = true →
      (∀ w, (getCore s n).formats = some w → w.getLsbD 4 = true) → base + 8192 ≤ 2 ^ 20 →
      Completes (.mout n tile a md 4) s (fun t =>
        t = { s with mem := t.mem, poison := t.poison } ∧
        (∀ i j, i < 64 → j < 16 → (csRead t n (base + 128 * i + 8 * j)).v =
          cell (readT s n tile) i (2 * j + 1) ++ cell (readT s n tile) i (2 * j)) ∧
        (∀ x, ¬ (coreStoreBase n + base ≤ x ∧ x < coreStoreBase n + base + 8192) → getByte t x = getByte s x)))

/-! ### The vector engine (02, 03) -/

/-- Lane `i` of a vector register. -/
def lane (l : Lane) (v : VReg) (i : Nat) : Nat := v.v.toNat / 2 ^ (l.width * i) % 2 ^ l.width

/-- Vd takes the lanes `f` and the word poison `p`; nothing else of the block changes. -/
def VectorResult (i : Instr) (s : State) (n d : Nat) (l : Lane) (p : BitVec 32) (f : Nat → Nat) : Prop :=
  Completes i s (fun t =>
    (∀ k, k < l.count → lane l (readV t n d) k = f k) ∧ (readV t n d).p = p ∧
    (∀ j, j ≠ d → readV t n j = readV s n j) ∧ getCore t n = { getCore s n with v := (getCore t n).v } ∧
    CoreOnly s t n)

/-- R51, R97 on integer lanes: sums, differences and products wrap, VMIN and VMAX follow the lane's signedness, VFMA
is one product and one sum, VABS and VNEG wrap; a result word is poisoned where an operand's is. -/
def Obligations.VectorIntegerLanes : Prop :=
  ∀ (s : State) (n d a b c md : Nat), d < 32 → a < 32 → b < 32 → c < 32 → 3 ≤ md → md ≤ 6 →
    let l := laneOf md
    let m := 2 ^ l.width
    let val (v : VReg) (k : Nat) : Int := if md = 6 then lane l v k else toSigned l.width (lane l v k)
    let x := readV s n a
    let y := readV s n b
    let z := readV s n c
    let wrap (e : Int) : Nat := (e % (m : Int)).toNat
    VectorResult (.vadd n d a b md) s n d l (x.p ||| y.p) (fun k => wrap (val x k + val y k)) ∧
    VectorResult (.vsub n d a b md) s n d l (x.p ||| y.p) (fun k => wrap (val x k - val y k)) ∧
    VectorResult (.vmul n d a b md) s n d l (x.p ||| y.p) (fun k => wrap (val x k * val y k)) ∧
    VectorResult (.vmin n d a b md) s n d l (x.p ||| y.p) (fun k => wrap (min (val x k) (val y k))) ∧
    VectorResult (.vmax n d a b md) s n d l (x.p ||| y.p) (fun k => wrap (max (val x k) (val y k))) ∧
    VectorResult (.vfma n d a b c md) s n d l (x.p ||| y.p ||| z.p) (fun k => wrap (val x k * val y k + val z k)) ∧
    VectorResult (.vabs n d a md) s n d l x.p (fun k => wrap (val x k).natAbs) ∧
    VectorResult (.vneg n d a md) s n d l x.p (fun k => wrap (- val x k))

/-- The format of a float MOD. -/
def floatOf (md : Nat) : FFmt :=
  match md with
  | 0 => fp32
  | 1 => fp16
  | _ => bf16

/-- R77, R97 on float lanes: the exact sum, difference, product or fused result rounded once to nearest even; VABS and
VNEG change the sign bit alone. R100: the special values of Table 03.10 for FP32. -/
def Obligations.VectorFloatLanes : Prop :=
  ∀ (s : State) (n d a b c md : Nat), d < 32 → a < 32 → b < 32 → c < 32 →
    let x := readV s n a
    let y := readV s n b
    let z := readV s n c
    (md ≤ 2 →
      let f := floatOf md
      let l := Lane.flt f
      let val (v : VReg) (k : Nat) : FVal := f.decode (lane l v k)
      VectorResult (.vadd n d a b md) s n d l (x.p ||| y.p) (fun k => f.encode .rne ((val x k).add (val y k))) ∧
      VectorResult (.vsub n d a b md) s n d l (x.p ||| y.p) (fun k => f.encode .rne ((val x k).add (val y k).neg)) ∧
      VectorResult (.vmul n d a b md) s n d l (x.p ||| y.p) (fun k => f.encode .rne ((val x k).mul (val y k))) ∧
      VectorResult (.vfma n d a b c md) s n d l (x.p ||| y.p ||| z.p)
        (fun k => f.encode .rne (((val x k).mul (val y k)).add (val z k))) ∧
      VectorResult (.vabs n d a md) s n d l x.p (fun k => lane l x k % 2 ^ (f.width - 1)) ∧
      VectorResult (.vneg n d a md) s n d l x.p (fun k => (lane l x k + 2 ^ (f.width - 1)) % 2 ^ f.width)) ∧
    (let l := Lane.flt fp32
     let special (i : Instr) (g : Nat → Option Nat) : Prop :=
      Completes i s (fun t => (∀ k r, k < 64 → g (lane l x k) = some r → lane l (readV t n d) k = r) ∧
        (readV t n d).p = x.p ∧ (∀ j, j ≠ d → readV t n j = readV s n j) ∧ CoreOnly s t n)
     let nan (v : Nat) : Bool := decide (0x7F800000 < v % 0x80000000)
     special (.vexp2 n d a 0) (fun v => if nan v then some 0x7FC00000
        else if 0x43000000 ≤ v ∧ v < 0x80000000 then some 0x7F800000
        else if 0xC3160000 ≤ v then some 0
        else if v = 0 ∨ v = 0x80000000 then some 0x3F800000 else none) ∧
     special (.vlog2 n d a 0) (fun v => if nan v then some 0x7FC00000
        else if v = 0 ∨ v = 0x80000000 then some 0xFF800000
        else if 0x80000000 < v then some 0x7FC00000
        else if v = 0x7F800000 then some 0x7F800000 else if v = 0x3F800000 then some 0 else none) ∧
     special (.vrcp n d a 0) (fun v => if nan v then some 0x7FC00000
        else if v = 0 then some 0x7F800000 else if v = 0x80000000 then some 0xFF800000
        else if v = 0x7F800000 then some 0 else if v = 0xFF800000 then some 0x80000000
        else if v = 0x3F800000 then some 0x3F800000 else none) ∧
     special (.vrsq n d a 0) (fun v => if nan v then some 0x7FC00000
        else if v = 0 then some 0x7F800000 else if v = 0x80000000 then some 0xFF800000
        else if 0x80000000 < v then some 0x7FC00000
        else if v = 0x7F800000 then some 0 else if v = 0x3F800000 then some 0x3F800000 else none))

/-- R97-R99 and Table 02.6: comparisons give all ones or zero, VSEL and VSHUF move lanes with their poison, VRED
combines all lanes of an INT32 register, VCVT widens INT16 to INT32, VROPE turns pairs of INT32 lanes. -/
def VectorSelection : Prop :=
  ∀ (s : State) (n d a b c md cond : Nat), d < 32 → a < 32 → b < 32 → c < 32 → md ≤ 6 →
    let l := laneOf md
    let x := readV s n a
    let y := readV s n b
    let z := readV s n c
    let i32 := laneOf 3
    let sv (v : VReg) (k : Nat) : Int := toSigned 32 (lane i32 v k)
    let wrap (e : Int) : Nat := (e % (2 ^ 32 : Int)).toNat
    (3 ≤ md → cond ≤ 5 → VectorResult (.vcmp n d a b md (BitVec.ofNat 32 cond)) s n d l (x.p ||| y.p) (fun k =>
      let p := lane l x k
      let q := lane l y k
      let sx := if md = 6 then (p : Int) else toSigned l.width p
      let sy := if md = 6 then (q : Int) else toSigned l.width q
      let holds : Bool := match cond with
        | 0 => p == q
        | 1 => p != q
        | 2 => decide (sx < sy)
        | 3 => decide (sy ≤ sx)
        | 4 => decide (p < q)
        | _ => decide (q ≤ p)
      if holds then 2 ^ l.width - 1 else 0)) ∧
    Completes (.vsel n d a b c md) s (fun t => CoreOnly s t n ∧ (∀ j, j ≠ d → readV t n j = readV s n j) ∧
      ∀ k, k < l.count → lane l (readV t n d) k = if lane l z k ≠ 0 then lane l x k else lane l y k) ∧
    Completes (.vshuf n d a b md) s (fun t => CoreOnly s t n ∧ (∀ j, j ≠ d → readV t n j = readV s n j) ∧
      ∀ k, k < l.count → lane l (readV t n d) k = lane l x (lane l y k % l.count)) ∧
    Completes (.vred n d a 3 0) s (fun t => CoreOnly s t n ∧ (∀ j, j ≠ d → readV t n j = readV s n j) ∧
      lane i32 (readV t n d) 0 = wrap (((List.range 64).map (fun k => sv x k)).sum) ∧
      ∀ k, 1 ≤ k → k < 64 → lane i32 (readV t n d) k = 0) ∧
    (∀ part, part ≤ 1 → Completes (.vcvt n d a 4 (BitVec.ofNat 32 (3 + 64 * part))) s (fun t => CoreOnly s t n ∧
      (∀ j, j ≠ d → readV t n j = readV s n j) ∧
      ∀ k, k < 64 → lane i32 (readV t n d) k = wrap (toSigned 16 (lane (laneOf 4) x (64 * part + k))))) ∧
    VectorResult (.vrope n d a b 3) s n d i32 (x.p ||| y.p) (fun k =>
      if k % 2 = 0 then wrap (sv x k * sv y k - sv x (k + 1) * sv y (k + 1))
      else wrap (sv x (k - 1) * sv y k + sv x k * sv y (k - 1)))

/-- R39, Table 02.6: VLD and VLDG fill Vd from the core store, VST writes Vb's words there, VBCAST repeats a scalar,
VTLD and VTST move rows 2p and 2p + 1 of a tile, VMOVS takes one lane to Sd. -/
def VectorMoves : Prop :=
  ∀ (s : State) (n d a b tile : Nat) (imm : BitVec 32) (part : Nat),
    n < 128 → d < 32 → b < 32 → tile < 8 → part < 32 →
    let i32 := laneOf 3
    let at_ := ((readA s n a).v + imm.signExtend 64).toNat % 2 ^ 20 / 64 * 64
    (a < 16 → (readA s n a).p = false →
      (Completes (.vld n d a imm) s (fun t => CoreOnly s t n ∧ (∀ j, j ≠ d → readV t n j = readV s n j) ∧
        ∀ k, k < 32 → (vWords (readV t n d)).getD k ⟨0, true⟩ = csRead s n (at_ + 8 * k))) ∧
      (twinned s n = false → at_ + 256 ≤ 2 ^ 20 → Completes (.vst n b a imm) s (fun t =>
        t = { s with mem := t.mem, poison := t.poison } ∧
        (∀ k, k < 32 → (csRead t n (at_ + 8 * k)).v = ((vWords (readV s n b)).getD k ⟨0, true⟩).v) ∧
        ∀ x, ¬ (coreStoreBase n + at_ ≤ x ∧ x < coreStoreBase n + at_ + 256) → getByte t x = getByte s x)) ∧
      ((readV s n b).p = 0 → Completes (.vldg n d a b) s (fun t => CoreOnly s t n ∧
        (∀ j, j ≠ d → readV t n j = readV s n j) ∧ ∀ k, k < 64 → lane i32 (readV t n d) k =
          getNum s (csAddr n ((readA s n a).v.toNat + lane i32 (readV s n b) k) 4) 4))) ∧
    (a < 32 → VectorResult (.vbcast n d a 3) s n d i32 (if (readS s n a).p then BitVec.allOnes 32 else 0)
      (fun _ => (readS s n a).v.toNat % 2 ^ 32)) ∧
    Completes (.vtld n d tile (BitVec.ofNat 32 part)) s (fun t => CoreOnly s t n ∧
      (∀ j, j ≠ d → readV t n j = readV s n j) ∧ ∀ k, k < 64 → lane i32 (readV t n d) k =
        (cell (readT s n tile) (2 * part) k).toNat) ∧
    (a < 32 → Completes (.vtst n tile a (BitVec.ofNat 32 part)) s (fun t => CoreOnly s t n ∧
      (∀ j, j ≠ tile → readT t n j = readT s n j) ∧
      (∀ k, k < 64 → (cell (readT t n tile) (2 * part) k).toNat = lane i32 (readV s n a) k) ∧
      ∀ k, k < 2048 → ¬ (64 * part ≤ k ∧ k < 64 * part + 64) →
        cell (readT t n tile) 0 k = cell (readT s n tile) 0 k)) ∧
    (a < 32 → part < 64 → ScalarResult (.vmovs n d a 3 (BitVec.ofNat 32 part)) s n d
      ⟨BitVec.ofInt 64 (toSigned 32 (lane i32 (readV s n a) part)), (readV s n a).p.getLsbD (part / 2)⟩)

/-- Vector selection and vector moves together. -/
def Obligations.VectorRest : Prop := VectorSelection ∧ VectorMoves

/-! ### Windows and attention (04, 05) -/

/-- The words of a descriptor that address register `a` of core `n` names, bits [5:0] of the address ignored. -/
def descWords (s : State) (n a k : Nat) : List PWord := csReadN s n ((readA s n a).v.toNat % 2 ^ 20 / 64 * 64) k

/-- R108, R114, R27: on a core that is not twinned, a window descriptor that fails its checks only sets BADOP and a
poisoned one stops the core; RESIZE_NEAREST of 8-bit planes inside the core store copies to each output element the
input element R114 names, and no byte outside its output rows changes. -/
def WindowJobs : Prop :=
  ∀ (s : State) (n a : Nat), n < 128 → a < 16 → twinned s n = false → (getCore s n).wn = none →
    (readA s n a).p = false →
    let ws := descWords s n a 16
    let d := parseWDesc (ws.map (·.v))
    let src (o r x : Nat) : Nat := d.srcAddr + o * d.srcPlane + r * d.srcRow + x
    let dst (o k x : Nat) : Nat := d.dstAddr + o * d.dstPlane + k * d.dstRow + x
    (ws.any (·.p) = true → Completes (.wnRun n a) s (fun t =>
      (getCore t n).stopped = true ∧ rdf t (Reg.ERR_STATUS .core n) 23 16 = 0x21 ∧ t.mem = s.mem)) ∧
    (ws.any (·.p) = false → wdOk (ws.map (·.v)) d = false → Completes (.wnRun n a) s (fun t =>
      rdb t (Reg.CORE_STATUS n) 4 = true ∧ RegsOnly s t [Reg.CORE_STATUS n, Reg.CORE_EVCNT n])) ∧
    (ws.any (·.p) = false → wdOk (ws.map (·.v)) d = true → d.op = 9 → d.inFmt = 1 → d.srcCl = false →
      d.dstCl = false → d.huRows = 0 → d.hdRows = 0 → d.otRows = 0 → d.obRows = 0 →
      d.wo ≤ d.dstRow → d.rowCount * d.dstRow ≤ d.dstPlane → d.dstAddr + d.cOut * d.dstPlane ≤ 2 ^ 20 →
      (∀ o r x, o < d.cIn → r < d.inRows → x < d.w → src o r x < 2 ^ 20 ∧
        (src o r x < d.dstAddr ∨ d.dstAddr + d.cOut * d.dstPlane ≤ src o r x)) →
      Completes (.wnRun n a) s (fun t =>
        (∀ o k x, o < d.cOut → k < d.rowCount → x < d.wo → getByte t (coreStoreBase n + dst o k x) =
          getByte s (coreStoreBase n + src o
            (min ((2 * (d.rowFirst + k) + 1) * d.h / (2 * d.ho)) (d.h - 1) - d.inRow0)
            (min ((2 * x + 1) * d.w / (2 * d.wo)) (d.w - 1)))) ∧
        (∀ y, (∀ o k x, o < d.cOut → k < d.rowCount → x < d.wo → y ≠ coreStoreBase n + dst o k x) →
          getByte t y = getByte s y) ∧
        t.regs = s.regs ∧ ∀ m, getCore t m = getCore s m))

/-- R117, R118: the wait of a window job on the acknowledgement of its top slot is granted once the semaphore holds
OT_NEED, which is taken from it, and the job goes on to wait for the halo row it reads; the wait for a halo row is
granted without taking anything; at the job's end the rows of its slot are taken from the row counter and the rows
not yet acknowledged are acknowledged. -/
def WindowWaits : Prop :=
  ∀ (s : State) (n i : Nat) (j : WnJob), n < 128 → twinned s n = false → (getCore s n).wn = some j →
    let d := parseWDesc j.desc
    let cl (x : Nat) : SemId := .cluster (n / 8) x
    doneRows d upIdx d.huRows j.row = j.upDone → doneRows d downIdx d.hdRows j.row = j.downDone →
    (j.wait = .ackTop → j.row < d.rowCount → j.row < d.otRows → j.topAcked = false → d.otNeed ≠ 0 →
      j.row + d.obRows < d.rowCount → needRow d upIdx j.row = some i → d.huSem ≠ d.otAck →
      d.otNeed ≤ semGet s (cl d.otAck) → semGet s (cl d.huSem) < i + 1 →
      Completes (.wnAckWaitGrant n) s (fun t =>
        semGet t (cl d.otAck) = semGet s (cl d.otAck) - d.otNeed ∧ SameRegs s t [semReg (cl d.otAck)] ∧
        (getCore t n).wn = some { j with topAcked := true, wait := .haloUp i } ∧ t.mem = s.mem)) ∧
    (j.wait = .haloUp i → j.upSettled = false → j.row + 1 = d.rowCount → d.otRows = 0 → d.obRows = 0 → d.hdRows = 0 →
      needRow d upIdx j.row = some i → i + 1 ≤ semGet s (cl d.huSem) → semGet s (cl d.huSem) < d.huRows →
      Completes (.wnHaloWaitGrant n) s (fun t => semGet t (cl d.huSem) = semGet s (cl d.huSem) ∧
        ∃ j', (getCore t n).wn = some j' ∧ j'.row = d.rowCount ∧ j'.wait = .final)) ∧
    (j.wait = .final → d.rowCount ≤ j.row → j.upSettled = false → 0 < d.huRows → d.hdRows = 0 →
      d.huAck ≠ d.huSem → j.upDone ≤ d.huRows → d.huRows ≤ semGet s (cl d.huSem) →
      semGet s (cl d.huAck) + (d.huRows - j.upDone) ≤ 0xFFFF →
      Completes (.wnFinalHaloSettle n) s (fun t =>
        semGet t (cl d.huSem) = semGet s (cl d.huSem) - d.huRows ∧
        semGet t (cl d.huAck) = semGet s (cl d.huAck) + (d.huRows - j.upDone) ∧
        SameRegs s t [semReg (cl d.huSem), semReg (cl d.huAck)] ∧
        (getCore t n).wn = none ∧ t.mem = s.mem))

/-- Window jobs: how they begin and how their waits go on. -/
def Obligations.Windows : Prop := WindowJobs ∧ WindowWaits

/-- R122, R126, R132, R133, R134 on a core that is not twinned: a job or merge descriptor that fails its checks writes
only a status record with RESULT 3 and sets BADOP; a row that admits no position, and a merge whose partials all have
log-sum-exp -∞, give FP32 zeros and one EMPTY_ROWS with RESULT 0, and touch no other byte. -/
def Obligations.AttentionJobs : Prop :=
  ∀ (s : State) (n a : Nat), n < 128 → a < 16 → twinned s n = false → (readA s n a).p = false →
    let job := (descWords s n a 16).map (·.v)
    let mrg := (descWords s n a 8).map (·.v)
    let d := parseAt job
    let e := parseMerge mrg
    let clean (k : Nat) : Prop := (descWords s n a k).any (·.p) = false
    let status (t : State) (st v : Nat) : Prop := csRead t n (st / 8 * 8) = ⟨BitVec.ofNat 64 v, false⟩ ∧
      csRead t n (st / 8 * 8 + 8) = ⟨0, false⟩
    let bad (i : Instr) (st : Nat) : Prop := Completes i s (fun t =>
      status t st (3 * 2 ^ 32) ∧ rdb t (Reg.CORE_STATUS n) 4 = true ∧
      SameRegs s t [Reg.CORE_STATUS n, Reg.CORE_EVCNT n] ∧ t.cores = s.cores ∧
      ∀ x, ¬ (coreStoreBase n ≤ x ∧ x < coreStoreBase n + 2 ^ 20) → getByte t x = getByte s x)
    let empty (i : Instr) (out len st : Nat) : Prop :=
      out + len ≤ 2 ^ 20 → st + 16 ≤ 2 ^ 20 → st % 8 = 0 → (st + 16 ≤ out ∨ out + len ≤ st) →
      Completes i s (fun t => status t st 1 ∧ t.cores = s.cores ∧
        (∀ k, k < len → getByte t (coreStoreBase n + out + k) = 0) ∧
        ∀ x, ¬ (coreStoreBase n + out ≤ x ∧ x < coreStoreBase n + out + len) →
          ¬ (coreStoreBase n + st ≤ x ∧ x < coreStoreBase n + st + 16) → getByte t x = getByte s x)
    (clean 16 → atOk job d = false → bad (.atRun n a) d.statusAddr) ∧
    (clean 8 → mergeOk mrg e = false → bad (.atMerge n a) e.statusAddr) ∧
    (clean 16 → atOk job d = true → rdb s Reg.DRIFT_CTL 0 = false → d.mask = 2 → d.window = 0 → d.posn = false →
      d.append = false → d.lseEn = false → d.qCl = false → d.outCl = false → d.outFmt = 12 → d.stageCount = 0 →
      d.batchFirst = 0 → d.batchCount = 0 → d.rowSkip = 0 → d.rowLimit = 0 → d.kvhCount = 1 → d.gq = 1 →
      (∀ k, k < 4 → ∃ die off, placeOf (d.batchAddr / 8 * 8 + 8 * k) = .dram die off ∧ absentAt s die off = none ∧
        refusedBy s (.engine n) (d.batchAddr / 8 * 8 + 8 * k) = false ∧
        (getWord s (d.batchAddr / 8 * 8 + 8 * k)).p = false) →
      (getWord s (d.batchAddr / 8 * 8)).v.toNat % 2 ^ 13 = 1 →
      (getWord s (d.batchAddr / 8 * 8 + 16)).v.toNat / 2 ^ 37 % 2 ^ 21 = 1 →
      empty (.atRun n a) d.outAddr (4 * d.hdim) d.statusAddr) ∧
    (clean 8 → mergeOk mrg e = true → e.outFmt = 12 → e.rows = 1 → e.partCl = false → e.outCl = false →
      e.lseEn = false → (∀ i, i < e.num → csRead4 s n (e.plseAddr + 4 * i) = (0xFF800000, false)) →
      empty (.atMerge n a) e.outAddr (4 * e.hdim) e.statusAddr)

/-! ### Entries of the rings and the page authority (05, 08) -/

/-- `n` words of DRAM from `a` that the requester may read and write and that no retirement has taken. -/
def Reach (s : State) (who : Requester) (a n : Nat) : Prop :=
  a % 8 = 0 ∧ ∀ k, k < n → ∃ d off, placeOf (a + 8 * k) = .dram d off ∧ absentAt s d off = none ∧
    refusedBy s who (a + 8 * k) = false

/-- The log ring, where one is configured, lies in DRAM. -/
def logInDram (s : State) : Prop :=
  ∀ c, s.rime.logCfg = some c → dramBase ≤ c.base ∧ c.base + 2 ^ c.log2 * 32 ≤ 0x12000000000

/-- Completions of the pair of `e` can be written: processor 0 serves, the pair is present, opened at a major above 2
and not stopped, and its completion ring and the log ring lie in DRAM. -/
def RingOpen (s : State) (e : Ent) (r : RingRec) : Prop :=
  serving s 0 = true ∧ ringOf s e.fn e.prio = some r ∧ pairStopped s e.fn e.prio = false ∧ major2 s e.fn = false ∧
  Reach s (.rime 0 .normal) r.cqBase (8 * 2 ^ r.cqLog2) ∧ Tab.find s.host.dirty e.fn = none ∧ logInDram s

/-- The entry's record among those consumed and not begun. -/
def Taken (s : State) (e : Ent) (opcode : Nat) (ws : List Word) (p : Pend) : Prop :=
  takePend s e opcode ws = some p ∧ pendOf s p.id = some p

/-- A completion entry stands at the tail of the pair's completion ring, with its status, phase, tag, DETAIL, opcode
and results (Table 08.6), and the tail has moved on. -/
def Answered (s t : State) (e : Ent) (r : RingRec) (opcode st detail : Nat) (res : List Word) : Prop :=
  let c := rdn s (Reg.HIF_CQ_TAIL e.fn e.prio)
  let w (k : Nat) : Word := (getWord t (r.cqBase + c % 2 ^ r.cqLog2 * 64 + 8 * k)).v
  (w 0).toNat % 256 = st ∧ bit (w 0) 8 = decide (c / 2 ^ r.cqLog2 % 2 = 0) ∧ (w 0).toNat / 2 ^ 32 = e.tag.toNat ∧
  (w 1).toNat % 256 = detail ∧ (w 1).toNat / 256 % 256 = opcode ∧ (∀ k, k < 4 → w (4 + k) = res.getD k 0) ∧
  rdn t (Reg.HIF_CQ_TAIL e.fn e.prio) = (c + 1) % 2 ^ 32

/-- R143, R146, R159, R160, R219: FIRN_QUERY returns the sequence's entry; SEQ_RELEASE marks it RELEASING; a lookup
returns the depth, the donor and the tokens of the longest match, an insertion adds a block to a free way of its set
or answers 0x20 in a full set, and both find nothing while the tree is off (0x21); a translation-cache miss is counted
and filled. -/
def Obligations.FirnTables : Prop :=
  ∀ (s : State) (e : Ent) (r : RingRec) (p : Pend) (seq mi addr count i d page : Nat) (h : Word) (te : TreeEnt),
    RingOpen s e r →
    let q := seqOf s seq
    let n (x : Nat) : Word := BitVec.ofNat 64 x
    (Taken s e 0x44 [n seq] p → Completes (.firnQuery e seq) s (fun t => t.firn = s.firn ∧
      Answered s t e r 0x44 0 0 [n (q.state + q.owner * 8 + q.mi * 2 ^ 16 + q.len * 2 ^ 32),
        n (q.kvh + q.pcap * 2 ^ 8 + q.donor * 2 ^ 24 + (if q.donorEn then 2 ^ 40 else 0)), n q.plist, n q.stepLast])) ∧
    (Taken s e 0x41 [n seq] p → Completes (.seqRelease e seq) s (fun t => Answered s t e r 0x41 0 0 [] ∧
      seqOf t seq = (if q.state = 0 then q else { q with state := 4 }) ∧
      ∀ k, k ≠ seq → seqOf t k = seqOf s k)) ∧
    (Taken s e 0x42 [n mi, n addr, n count] p → Reach s .firn addr count →
      (rdb s Reg.FIRN_CTL 1 = false → Completes (.prefixLookup e mi addr count) s (fun t =>
        t.firn = s.firn ∧ Answered s t e r 0x42 0 0 [])) ∧
      (rdb s Reg.FIRN_CTL 1 = true → count = 1 → getWord s addr = ⟨h, false⟩ → treeFind s h none = some i →
        Tab.find s.firn.tabs.tree i = some te → Completes (.prefixLookup e mi addr count) s (fun t =>
          t.firn = s.firn ∧ Answered s t e r 0x42 0 0 [1, n te.donor, 128]))) ∧
    (Taken s e 0x43 [n seq, n addr, n count] p → Reach s .firn addr count →
      (rdb s Reg.FIRN_CTL 1 = false → Completes (.prefixInsert e seq addr count) s (fun t =>
        t.firn = s.firn ∧ Answered s t e r 0x43 0 0x21 [])) ∧
      (rdb s Reg.FIRN_CTL 1 = true → count = 1 → getWord s addr = ⟨h, false⟩ → treeFind s h none = none →
        (treeFree s h = some i → Completes (.prefixInsert e seq addr count) s (fun t =>
          Answered s t e r 0x43 0 0 [] ∧ ∀ k, Tab.find t.firn.tabs.tree k =
            if k = i then some ⟨h, 0, true, seq, 0⟩ else Tab.find s.firn.tabs.tree k)) ∧
        (treeFree s h = none → Completes (.prefixInsert e seq addr count) s (fun t =>
          Answered s t e r 0x43 0 0x20 [] ∧ rdb t Reg.FIRN_STATUS 4 = true ∧
          t.firn.tabs.tree = s.firn.tabs.tree)))) ∧
    (s.firn.tc.any (fun x => x.die == d && x.page == page) = false → rdn s (Reg.FIRN_TC_MISS d) < 2 ^ 32 - 1 →
      Completes (.tcMissServe d page) s (fun t =>
        t.firn.tc.head? = some ⟨d, page, (pageEnt s page).frame, pageState s page, (pageEnt s page).cls,
          (pageEnt s page).owner⟩ ∧
        rdn t (Reg.FIRN_TC_MISS d) = rdn s (Reg.FIRN_TC_MISS d) + 1 ∧ SameRegs s t [Reg.FIRN_TC_MISS d] ∧
        t.mem = s.mem))

/-- R146-R149, R154-R157, R305: FIRN_STEP queues its step; the boundary of the next step whose descriptor is not refused
begins and BUSY stands, one whose header names another model instance completes with 0x11; an agreed boundary commits
with STEP_DONE and completes its step; the gathering of the devices' outcomes takes it through its phases, and a
timeout undoes it from the journal with its step kept in the queue. -/
def Obligations.FirnSteps : Prop :=
  ∀ (s : State) (e : Ent) (r : RingRec) (p : Pend) (mi addr : Nat) (c : StepCmd) (m : MiDecl) (b : Boundary)
    (copyUc notOk : List Nat),
    (serving s 0 = true → Taken s e 0x40 [BitVec.ofNat 64 mi, BitVec.ofNat 64 addr] p →
      Completes (.firnStep e mi addr) s (fun t =>
        t.firn = { s.firn with queue := s.firn.queue ++ [⟨p.id, mi, addr, p.id⟩] } ∧
        pendOf t p.id = some { p with started := true } ∧ t.regs = s.regs ∧ t.mem = s.mem)) ∧
    (serving s 0 = true → s.firn.busy = none → nextStep s mi = some c → miOf s mi = some m →
      rdb s Reg.FIRN_CTL 0 = true → (m.localCount = m.shards ∨ live s 2 = true) →
      let head := getWords s c.addr 8
      let n := (head.getD 0 ⟨0, true⟩).v.toNat / 2 ^ 16 % 2 ^ 13
      n ≤ 4096 → Reach s .firn c.addr (8 + 4 * n) →
      (stepRefusal mi head (getWords s (c.addr + 64) (4 * n)) = none → Completes (.firnBoundary mi) s (fun t =>
        (∃ b', t.firn.busy = some b' ∧ b'.cmd = c ∧ b'.agreed = (if m.localCount = m.shards then 2 else 0)) ∧
        rdb t Reg.FIRN_STATUS 6 = true)) ∧
      ((head.getD 0 ⟨0, true⟩).v.toNat % 2 ^ 16 ≠ mi → RingOpen s e r → pendOf s c.pid = some p → p.ent = e →
        p.opcode = 0x40 → s.rime.jobs = [] → Completes (.firnBoundary mi) s (fun t =>
          t.firn.busy = none ∧ t.firn.queue = s.firn.queue.filter (fun x => x.pid != c.pid) ∧
          Answered s t e r 0x40 0 0x11 []))) ∧
    (s.firn.busy = some b → b.cmd.mi = mi →
      (b.agreed = 2 → miOf s mi = some m → RingOpen s e r → pendOf s b.cmd.pid = some p → p.ent = e →
        p.opcode = 0x40 → s.rime.jobs = [] → Completes (.firnCommit mi copyUc) s (fun t =>
          t.firn.busy = none ∧ Tab.get 0 t.firn.steps mi = Tab.get 0 s.firn.steps mi + 1 ∧
          rdn t Reg.FIRN_STEPS = (rdn s Reg.FIRN_STEPS + 1) % 2 ^ 64 ∧ rdb t Reg.FIRN_STATUS 0 = true ∧
          rdb t Reg.FIRN_STATUS 6 = false ∧ Answered s t e r 0x40 0 0 [])) ∧
      (b.agreed = 0 → live s 2 = true → miOf s mi = some m → Completes (.firnGather mi notOk) s (fun t =>
        ∃ b', t.firn.busy = some b' ∧ b'.cmd = b.cmd ∧ b'.agreed = 1)) ∧
      (b.agreed = 1 → live s 2 = true → miOf s mi = some m → Completes (.firnGather mi []) s (fun t =>
        t = { s with firn := { s.firn with busy := some { b with agreed := 2 } } })) ∧
      (b.agreed < 2 → (b.slots.map (·.1)).Nodup → (∀ x ∈ b.slots, x.1 % 8 = 0) →
        Completes (.firnGatherTimeout mi) s (fun t =>
          t.firn.busy = none ∧ t.firn.tabs = b.journal ∧ rdb t Reg.FIRN_STATUS 6 = false ∧
          t.firn.queue = s.firn.queue.filter (fun x => x.pid != b.cmd.pid) ++ [b.cmd] ∧
          ∀ x ∈ b.slots, getWord t x.1 = x.2)))

/-! ### Register access (00, 01) -/

/-- Blocks whose registers have only the actions of their access codes. -/
def plainBlocks : List Blk := [.sec, .serac, .stream, .gateway, .cornice]

/-- R9-R11: a write sets RW bits, clears W1C bits written as 1 and leaves every other bit; a requester without the
right, or a locked register, changes nothing. R9, R10: a read returns the register and clears its RC bits, taking in what arrives in that cycle; the
debug port's read clears none. R8: a read of the low half latches the high half. -/
def Obligations.RegisterAccess : Prop :=
  ∀ (s : State) (who : Requester) (a u : Nat) (b : Blk) (r : RegRow) (v hw : Word), b ∈ plainBlocks →
    regInfo a = some (b, u, r) →
    let off := a - b.base u
    let may := mayWrite s who b u off = true ∧ rwlLocked s b off a = false
    (may → Completes (.registerWrite who a 64 v) s (fun t =>
      rd t a = ((rd s a &&& ~~~ r.rw) ||| (v &&& r.rw)) &&& ~~~ (v &&& r.w1c) ∧ RegsOnly s t [a])) ∧
    (¬ may → Completes (.registerWrite who a 64 v) s (fun t => t = s)) ∧
    (b = .stream ∨ b = .serac → who ≠ .debug → Completes (.rcRead who a hw) s (fun t =>
      t.out = .readData a (rd s a) false :: s.out ∧
      (r.rc ≠ 0 → rd t a = (rd s a &&& ~~~ r.rc) ||| (hw &&& r.rc)) ∧ SameRegs s t [a] ∧
      t.mem = s.mem ∧ (r.rc = 0 → t.regs = s.regs))) ∧
    (b = .stream ∨ b = .serac → Completes (.rcRead .debug a hw) s (fun t =>
      t = { s with out := .readData a (rd s a) false :: s.out })) ∧
    (b = .stream ∨ b = .serac → r.rc = 0 → Completes (.reg64LowRead who a) s (fun t =>
      t.out = .readData a (rd s a &&& 0xFFFFFFFF) false :: s.out ∧ Tab.find t.latch a = some (rd s a >>> 32) ∧
      t.regs = s.regs))

/-- R34, R36: one write of a W1C register clears every bit written as 1 and leaves every other; what hardware sets in
that cycle is 1 after it, and the event counter counts each such set, also of a flag that was 1 or is cleared. -/
def Obligations.W1cFlags : Prop :=
  ∀ (s : State) (who : Requester) (a u : Nat) (b : Blk) (r : RegRow) (v hw : Word),
    regInfo a = some (b, u, r) → r.w1c ≠ 0 →
    mayWrite s who b u (a - b.base u) = true → pinHidden s who b (a - b.base u) = false →
    Completes (.w1cClear who a v hw) s (fun t =>
      rd t a = ((rd s a &&& ~~~ (v &&& r.w1c)) ||| (hw &&& r.w1c)) ∧
      ∃ e, evReg b u r a = some e ∧ e ≠ a ∧ RegsOnly s t [a, e] ∧
        (hw &&& r.w1c = 0 → rd t e = rd s e) ∧
        (hw &&& r.w1c ≠ 0 → rdn t e = (rdn s e + popcount (hw &&& r.w1c)) % 2 ^ 32))

/-! ### Clocks and errors (01) -/

/-- The package records an FE with a SOURCE, and a report of it is on its way (R25, R31). -/
def PackageFatal (s t : State) (src addr : Nat) : Prop :=
  rdb t (Reg.ERR_STATUS .package 0) 3 = true ∧ rdf t (Reg.ERR_STATUS .package 0) 23 16 = src ∧
  t.reports = s.reports ++ [⟨.package, 0, .fe, src, addr, false⟩] ∧ t.mem = s.mem ∧ t.cores = s.cores

/-- R16, R17: until the root PLL's lock no clock runs, and its loss is a package FE 0x81; a PCLK or NCLK more than 1 %
off is FE 0x82, and a Serac clock more than 1 % off FE 0x88. -/
def ClockSupervision : Prop :=
  ∀ (s : State) (p n c : Nat),
    (s.pending = [] → s.clk.locked = false → step s = .next s) ∧
    (s.power.boot ≠ .held → s.power.boot ≠ .standby →
      Completes .rootPllLock s (fun t => t = { s with clk := { s.clk with locked := true, wasLocked := true } })) ∧
    (s.clk.locked = true → Completes .rootPllLockLoss s (fun t =>
      t.clk.locked = false ∧ PackageFatal s t 0x81 0)) ∧
    (s.clk.wasLocked = true →
      ((p < 7920 ∨ 8080 < p ∨ n < 31680 ∨ 32320 < n) →
        Completes (.clockMonitorWindow p n) s (fun t => PackageFatal s t 0x82 0)) ∧
      (7920 ≤ p → p ≤ 8080 → 31680 ≤ n → n ≤ 32320 → Completes (.clockMonitorWindow p n) s (fun t => t = s)) ∧
      ((c < 25344 ∨ 25856 < c) → Completes (.seracClockCheck c) s (fun t =>
        PackageFatal s t 0x88 0 ∧ t.out = .notice "Serac" "clock deviation" c :: s.out)) ∧
      (25344 ≤ c → c ≤ 25856 → Completes (.seracClockCheck c) s (fun t => t = s)))

/-- R18, R20: a write of a divider 4-6 gates CCLK until it restarts at that divider, and any other value changes
nothing; the restart puts the divider in DIE_CLK_STATUS; the end of a retraining clears both stacks' flags. -/
def DieClocks : Prop :=
  ∀ (s : State) (d : Nat) (c : BitVec 3), d < 4 →
    (live s (4 + d) = true → 4 ≤ c.toNat → c.toNat ≤ 6 → Completes (.cdivWrite d c) s (fun t =>
      rdf t (Reg.DIE_CLK_CTL d) 2 0 = c.toNat ∧ cclkGated t d = true ∧ (getDie t d).cdivNext = c ∧
      SameRegs s t [Reg.DIE_CLK_CTL d] ∧ t.mem = s.mem)) ∧
    ((c.toNat < 4 ∨ 6 < c.toNat) → Completes (.cdivWrite d c) s (fun t => t = s)) ∧
    ((getDie s d).cdivBusy = true → s.power.changing = none →
      (getDie s d).cdivNext.toNat ≤ rdf s (Reg.DIE_CLK_STATUS d) 2 0 → Completes (.cclkRestart d) s (fun t =>
        rdf t (Reg.DIE_CLK_STATUS d) 2 0 = (getDie s d).cdivNext.toNat ∧ (getDie t d).cdivBusy = false ∧
        SameRegs s t [Reg.DIE_CLK_STATUS d] ∧ t.mem = s.mem)) ∧
    (rdb s (Reg.MEM_STATUS (2 * d)) 3 = true → s.power.changing = none → (getDie s d).held = [] →
      Completes (.dramRetrainDone d) s (fun t =>
        rdb t (Reg.MEM_STATUS (2 * d)) 3 = false ∧ rdb t (Reg.MEM_STATUS (2 * d + 1)) 3 = false ∧
        SameRegs s t [Reg.MEM_STATUS (2 * d), Reg.MEM_STATUS (2 * d + 1)] ∧ t.mem = s.mem))

/-- The two clock statements together: supervision (R16, R17) and the dies' dividers (R18-R21). -/
def Obligations.Clocks : Prop := ClockSupervision ∧ DieClocks

/-- R31, R32, R435: the oldest report reaches Serac and the party of its level; a die FE is passed up as a package UC
with ESC_IN and ordered as a restart; an injected error is recorded and reported, but nothing is contained. -/
def Obligations.ErrorReports : Prop :=
  ∀ (s : State) (r : Report) (rs : List Report) (l : Level) (u : Nat) (val : BitVec 32),
    (s.reports = r :: rs → r.inj = true ∨ (r.lvl = .package ∧ r.cls = .uc) → Completes .errorReport s (fun t =>
      t.reports = rs ∧ t.regs = s.regs ∧ t.mem = s.mem ∧ t.cores = s.cores ∧
      t.out = .notice (reportParty r.lvl r.unit).1 (if r.cls = .fe then "FE" else "UC")
          ((reportParty r.lvl r.unit).2 * 256 + r.src) ::
        .notice "Serac" (if r.cls = .fe then "FE" else "UC") r.src :: s.out)) ∧
    (s.reports = r :: rs → r.inj = false → r.lvl = .die → r.cls = .fe → r.src ≠ 0x6C → r.src < 256 →
      Completes .errorReport s (fun t =>
        t.reports = rs ∧ rdb t (Reg.ERR_STATUS .package 0) 2 = true ∧ rdb t (Reg.ERR_STATUS .package 0) 5 = true ∧
        rdf t (Reg.ERR_STATUS .package 0) 23 16 = r.src ∧ t.serac.pend = s.serac.pend ++ [.die r.unit r.src])) ∧
    (val.toNat % 8 = 3 → sourceValid l (val.toNat / 16 % 256) .uc = true → Completes (.errInject .serac l u val) s
      (fun t => rdb t (Reg.ERR_STATUS l u) 2 = true ∧ rdf t (Reg.ERR_STATUS l u) 23 16 = val.toNat / 16 % 256 ∧
        t.reports = s.reports ++ [⟨l, u, .uc, val.toNat / 16 % 256, 0, true⟩] ∧ t.cores = s.cores ∧
        t.power = s.power ∧ t.mem = s.mem))

/-! ### Memory (06) -/

/-- R177, R178, R330: a read of a store or DRAM word that nothing refuses or holds returns it with its poison; a
corrected one is counted as CE; one uncorrectable at both attempts returns an open value with poison; a refused one
returns poisoned 0 and is a violation. -/
def MemoryReads : Prop :=
  ∀ (s : State) (who : Requester) (lab : Label) (a c d off pos : Nat) (l1 l2 : List Nat),
    a % 8 = 0 → rdb s Reg.DRIFT_CTL 0 = false →
    let ends (a1 a2 : Attempt) (v : Word) (p : Bool) (P : State → Prop) : Prop :=
      Completes (.memoryRead who lab a a1 a2) s (fun t => t.out.head? = some (.readData a v p) ∧ P t)
    (placeOf a = .clusterStore c off → storeHeld s who a = none → refusedBy s who a = false →
      ends .clean .clean (getWord s a).v (getWord s a).p (fun t =>
        t = { s with out := .readData a (getWord s a).v (getWord s a).p :: s.out }) ∧
      ((getWord s a).p = false →
        ends (.corrected pos) .clean (getWord s a).v false (fun t =>
          rdb t (Reg.ERR_STATUS .cluster c) 0 = true ∧ t.reports = s.reports ∧
          (rdb s (Reg.DIE_MEM_CTL (dieOfCluster c)) 1 = false → t.mem = s.mem)) ∧
        ends (.uncorrectable l1) (.uncorrectable l2) (Config.freeWord s.free) true (fun t =>
          rdb t (Reg.ERR_STATUS .cluster c) 1 = true ∧ t.free = s.free + 1 ∧ t.mem = s.mem))) ∧
    (placeOf a = .dram d off → dramHeld s d = false → (getDie s d).held = [] → refusedBy s who a = true →
      ends .clean .clean 0 true (fun t =>
        rdb t Reg.SEC_STATUS 0 = true ∧ t.mem = s.mem ∧
        (rdb s Reg.SEC_STATUS 0 = false → rdn t Reg.SEC_VIOL_ADDR = a % 2 ^ 64)))

/-- R26, R167, R330: a write of a cluster-store word that nothing refuses or holds stores it with its poison and
touches no other byte; a refused write and a write to an absent DRAM address store nothing. -/
def MemoryWrites : Prop :=
  ∀ (s : State) (who : Requester) (lab : Label) (a c d off k : Nat) (v : Word) (p : Bool),
    a % 8 = 0 → rdb s Reg.DRIFT_CTL 0 = false →
    (placeOf a = .clusterStore c off → storeHeld s who a = none → refusedBy s who a = false →
      Completes (.memoryWrite who lab a v p) s (fun t =>
        t = { s with mem := t.mem, poison := t.poison } ∧ (getWord t a).v = v ∧ poisonAt t a = p ∧
        (∀ x, ¬ (a ≤ x ∧ x < a + 8) → getByte t x = getByte s x) ∧
        ∀ x, x / 8 ≠ a / 8 → poisonAt t x = poisonAt s x)) ∧
    (placeOf a = .dram d off → d < 4 → dramHeld s d = false → (getDie s d).held = [] →
      (refusedBy s who a = true → Completes (.memoryWrite who lab a v p) s (fun t =>
        t.mem = s.mem ∧ t.poison = s.poison ∧ rdb t Reg.SEC_STATUS 0 = true)) ∧
      (refusedBy s who a = false → absentAt s d off = some k → k < 8 →
        Completes (.memoryWrite who lab a v p) s (fun t =>
          t.mem = s.mem ∧ t.poison = s.poison ∧ rdb t (Reg.MEM_STATUS k) 1 = true ∧
          rdb t (Reg.ERR_STATUS .die (k / 2)) 1 = true)))

/-- Reads and writes of memory together. -/
def Obligations.MemoryAccesses : Prop := MemoryReads ∧ MemoryWrites

/-- R174, R181: FILL zeroes every store byte of a die none of whose cores runs, and FILL_DONE stands once the fill
has ended; MLOG_CLEAR frees the entries it names. -/
def Obligations.FillsAndLogs : Prop :=
  ∀ (s : State) (who : Requester) (d i a : Nat) (log : LogId) (val : BitVec 32), d < 4 →
    (mayWrite s who .die d 0x200 = true →
      ((∀ l, l < 32 → running s (32 * d + l) = false) → Completes (.storeFill who d) s (fun t =>
        rdb t (Reg.DIE_MEM_STATUS d) 0 = false ∧ SameRegs s t [Reg.DIE_MEM_STATUS d] ∧
        (∀ x, 0x104000000 + d * 0x40000000 ≤ x → x < 0x10A000000 + d * 0x40000000 →
          getByte t x = 0 ∧ poisonAt t x = false) ∧
        (∀ x, ¬ (0x104000000 + d * 0x40000000 ≤ x ∧ x < 0x10A000000 + d * 0x40000000) →
          getByte t x = getByte s x))) ∧
      (∀ l, l < 32 → running s (32 * d + l) = true → Completes (.storeFill who d) s (fun t =>
        t.mem = s.mem ∧ rdb t (Reg.DIE_MEM_STATUS d) 1 = true))) ∧
    (rdb s (Reg.DIE_MEM_STATUS d) 0 = false → parked s d = false → (getDie s d).fillWait = [] →
      Completes (.storeFillDone d) s (fun t =>
        rdb t (Reg.DIE_MEM_STATUS d) 0 = true ∧ SameRegs s t [Reg.DIE_MEM_STATUS d] ∧ t.mem = s.mem)) ∧
    (log.wf = true → i < 16 → Completes (.mlogClear log val none) s (fun t =>
      (val.getLsbD 16 = true ∨ val.getLsbD i = true →
        rd t (Reg.MLOG_ENTRY_A log i) = 0 ∧ rd t (Reg.MLOG_ENTRY_B log i) = 0) ∧
      (val.getLsbD 16 = false → val.getLsbD i = false →
        rd t (Reg.MLOG_ENTRY_A log i) = rd s (Reg.MLOG_ENTRY_A log i)) ∧
      t.mem = s.mem ∧ getByte t a = getByte s a))

/-! ### Movers and Drift (07) -/

/-- R52, R191, R201: DMV.START puts the chain's address and CHAIN in the channel's registers and makes it busy;
DMV.WAIT waits for the channel, DMV.STOP stops a busy channel at its next boundary, and SYNC.MEM waits for nothing. -/
def Obligations.CoreMoverInstructions : Prop :=
  ∀ (s : State) (n ch a : Nat), n < 128 → ch < 8 → a < 16 →
    let c := ChanId.core n ch
    (chanBusy s c = false → (readA s n a).p = false → Completes (.dmvStart n ch a) s (fun t =>
      rdn t (Reg.MV_DESC c) = 0xFC * 2 ^ 40 + (readA s n a).v.toNat % 2 ^ 20 ∧
      rdb t (Reg.MV_CTL c) 2 = true ∧ rdb t (Reg.MV_CTL c) 30 = false ∧ chanBusy t c = true ∧
      (getChan t c).fetch = true ∧ t.mem = s.mem ∧
      SameRegs s t [Reg.MV_DESC c, Reg.MV_CTL c, Reg.MV_STATUS c])) ∧
    (chanBusy s c = true → Completes (.dmvStart n ch a) s (fun t =>
      CoreOnly s t n ∧ (getCore t n).qc.length = (getCore s n).qc.length + 1)) ∧
    (chanBusy s c = false → Completes (.dmvWait n ch) s (fun t => t = s)) ∧
    (chanBusy s c = true → Completes (.dmvWait n ch) s (fun t =>
      CoreOnly s t n ∧ (getCore t n).qc.length = (getCore s n).qc.length + 1)) ∧
    (chanBusy s c = true → chanArmed s c = false → Completes (.dmvStop n ch) s (fun t =>
      (getChan t c).stop = true ∧ t.regs = s.regs ∧ t.mem = s.mem)) ∧
    (chanBusy s c = false → chanArmed s c = false → Completes (.dmvStop n ch) s (fun t => t = s)) ∧
    Completes (.syncMem n) s (fun t => t = s)

/-- R196, R197, R201: START makes an idle cluster channel busy, or armed under TRIG_EN; STOP disarms an armed channel
at once with STOPPED; the grant of its trigger semaphore restarts an armed channel at MV_HEAD. -/
def ChannelStarts : Prop :=
  ∀ (s : State) (k ch : Nat) (w : World) (val : BitVec 32), k < 16 → ch < 16 →
    let c := ChanId.cluster k ch
    let who := Requester.rime (4 + k / 4) w
    let sem := SemId.cluster k (rdf s (Reg.MV_CTL c) 11 4)
    (chanBusy s c = false → chanArmed s c = false → val.getLsbD 0 = true → val.getLsbD 1 = false →
      Completes (.mvStart who c val) s (fun t =>
        chanBusy t c = !val.getLsbD 3 ∧ chanArmed t c = val.getLsbD 3 ∧
        rdf t (Reg.MV_CTL c) 11 4 = val.toNat / 16 % 256 ∧ (getChan t c).regMode = !val.getLsbD 2 ∧
        SameRegs s t [Reg.MV_CTL c, Reg.MV_STATUS c] ∧ t.mem = s.mem)) ∧
    (chanBusy s c = true → val.getLsbD 0 = true → val.getLsbD 1 = false → Completes (.mvStart who c val) s (fun t =>
      RegsOnly s t [Reg.MV_CTL c])) ∧
    (chanArmed s c = true → Completes (.mvStop who c) s (fun t =>
      chanArmed t c = false ∧ rdb t (Reg.MV_STATUS c) 3 = true ∧
      RegsOnly s t [Reg.MV_STATUS c, Reg.MV_EVCNT c])) ∧
    (chanArmed s c = true → 1 ≤ semGet s sem → Completes (.mvTrigger c) s (fun t =>
      semGet t sem = semGet s sem - 1 ∧ rd t (Reg.MV_DESC c) = rd s (Reg.MV_HEAD c) ∧ chanBusy t c = true ∧
      chanArmed t c = false ∧ (getChan t c).fetch = true ∧ t.mem = s.mem)) ∧
    (semGet s sem = 0 → Completes (.mvTrigger c) s (fun t => t = s))

/-- R192-R195 for a register-mode transfer of a core channel inside its own store: the fetch moves MV_COUNT bytes word
by word with their poison, and no byte outside the destination changes. -/
def Obligations.RegisterModeCopy : Prop :=
  ∀ (s : State) (n ch so do_ words : Nat), n < 128 → ch < 8 → 0 < words →
    let c := ChanId.core n ch
    twinned s n = false → chanBusy s c = true → (getChan s c).fetch = true → (getChan s c).regMode = true →
    rdf s (Reg.MV_SRC c) 47 0 = 0xFC * 2 ^ 40 + 8 * so → rdf s (Reg.MV_DST c) 47 0 = 0xFC * 2 ^ 40 + 8 * do_ →
    rdf s (Reg.MV_COUNT c) 31 0 = 8 * words → 8 * (so + words) ≤ 2 ^ 20 → 8 * (do_ + words) ≤ 2 ^ 20 →
    (so + words ≤ do_ ∨ do_ + words ≤ so) → (∀ e, e < 8 → rdb s (Reg.ENCL_A e) 51 = false) →
    Completes (.mvDescriptorFetch c) s (fun t =>
      (∀ i, i < words → getWord t (coreStoreBase n + 8 * (do_ + i)) = getWord s (coreStoreBase n + 8 * (so + i))) ∧
      (∀ x, ¬ (coreStoreBase n + 8 * do_ ≤ x ∧ x < coreStoreBase n + 8 * (do_ + words)) →
        getByte t x = getByte s x) ∧
      (getChan t c).fin.isSome = true ∧ (getChan t c).fetch = false ∧ chanBusy t c = true ∧ t.regs = s.regs)

/-- R196, R199, R203, R204, R208: the completion point of a chain's last descriptor clears BUSY and sets DONE; a request
on a held line is counted; a minimum is raised only within LIMIT. -/
def ChannelCompletion : Prop :=
  ∀ (s : State) (n k ch line res cls : Nat) (d : Desc) (w : World) (val : BitVec 32),
    n < 128 → k < 16 → ch < 8 → res < 24 → cls < 8 →
    let ends (i : Instr) (c : ChanId) : Prop :=
      (getChan s c).fin = some d → (getChan s c).left = 0 → (getChan s c).trig = false → chanBusy s c = true →
      d.next = 0 → d.irq = false → d.sigEn = false → rdb s (Reg.MV_CTL c) 31 = false →
      Completes i s (fun t => chanBusy t c = false ∧ rdb t (Reg.MV_STATUS c) 2 = true ∧ (getChan t c).fin = none ∧
        SameRegs s t [Reg.MV_STATUS c, Reg.MV_EVCNT c] ∧ t.mem = s.mem)
    ends (.mvCoreDone n ch) (.core n ch) ∧ ends (.mvReadbackDone (.cluster k ch)) (.cluster k ch) ∧
    ends (.mvReadbackDone (.hub ch)) (.hub ch) ∧
    (Tab.find s.lines line = some (chanKey (.hub ch)) → chanBusy s (.hub ch) = true →
      (getChan s (.hub ch)).fin = none → rdf s (Reg.MV_STATUS (.hub ch)) 31 24 < 255 →
      Completes (.mvRequest line) s (fun t =>
        rdf t (Reg.MV_STATUS (.hub ch)) 31 24 = rdf s (Reg.MV_STATUS (.hub ch)) 31 24 + 1 ∧
        RegsOnly s t [Reg.MV_STATUS (.hub ch)])) ∧
    (let cap := rdf s (Reg.DRIFT_CAP res) 15 0
     let others := minOf s res 0 + minSum s res - minOf s res cls
     let v := val.toNat % 65536
     (minOf s res cls < v → limitOf cap < others + v →
       Completes (.driftShareWrite (.rime 3 w) res cls val) s (fun t =>
         rdb t Reg.DRIFT_STATUS 0 = true ∧ rdf t Reg.DRIFT_STATUS 12 8 = res ∧
         RegsOnly s t [Reg.DRIFT_STATUS, Reg.DRIFT_EVCNT])) ∧
     (v ≤ minOf s res cls ∨ others + v ≤ limitOf cap →
       Completes (.driftShareWrite (.rime 3 w) res cls val) s (fun t => minOf t res cls = v ∧ t.mem = s.mem ∧
         t.cores = s.cores)))

/-- How channels of clusters start and how any channel ends. -/
def Obligations.Channels : Prop := ChannelStarts ∧ ChannelCompletion

/-! ### Rings, jobs and operations (08) -/

/-- How far one free-running 32-bit counter runs ahead of another (R216). -/
def ahead (a b : Nat) : Nat := (a + 2 ^ 32 - b % 2 ^ 32) % 2 ^ 32

/-- R216, R217: a doorbell write moves its counter and nothing else; a tail more than a ring ahead of the head, and a
completion head beyond the tail, stop the pair with ERR_PAIR and RING_ERR. -/
def RingDoorbells : Prop :=
  ∀ (s : State) (fn prio : Nat) (r : RingRec) (val : BitVec 32), fn < 17 → prio < 4 → ringOf s fn prio = some r →
    let sqH := rdn s (Reg.HIF_SQ_HEAD fn prio)
    let sqT := rdn s (Reg.HIF_SQ_TAIL fn prio)
    let cqH := rdn s (Reg.HIF_CQ_HEAD fn prio)
    let cqT := rdn s (Reg.HIF_CQ_TAIL fn prio)
    let plain (i : Instr) (reg : Nat) : Prop := Completes i s (fun t =>
      rdf t reg 31 0 = val.toNat ∧ RegsOnly s t [reg])
    let stops (i : Instr) (reg : Nat) : Prop :=
      pairStopped s fn prio = false → 2 ≤ instState s fn → live s 0 = true → Completes i s (fun t =>
        rdf t reg 31 0 = val.toNat ∧ pairStopped t fn prio = true ∧ rdb t (Reg.HIF_STATUS fn) 2 = true ∧
        RegsOnly s t [reg, Reg.HIF_STATUS fn, Reg.HIF_EVCNT fn])
    (ahead val.toNat sqH ≤ 2 ^ r.sqLog2 → (ahead cqH cqT = 0 ∨ 2 ^ 31 ≤ ahead cqH cqT) →
      plain (.sqDoorbell fn prio val) (Reg.HIF_SQ_TAIL fn prio)) ∧
    (2 ^ r.sqLog2 < ahead val.toNat sqH → stops (.sqDoorbell fn prio val) (Reg.HIF_SQ_TAIL fn prio)) ∧
    (ahead sqT sqH ≤ 2 ^ r.sqLog2 → (ahead val.toNat cqT = 0 ∨ 2 ^ 31 ≤ ahead val.toNat cqT) →
      plain (.cqHeadWrite fn prio val) (Reg.HIF_CQ_HEAD fn prio)) ∧
    (0 < ahead val.toNat cqT → ahead val.toNat cqT < 2 ^ 31 →
      stops (.cqHeadWrite fn prio val) (Reg.HIF_CQ_HEAD fn prio))

/-- R220: OPEN is answered with OPEN for major 3 and a minor this firmware has, and with REFUSED and the reason for
another major or a higher minor; the accepted version is kept. -/
def InstanceOpening : Prop :=
  ∀ (s : State) (fn : Nat), fn < 17 → serving s 0 = true → instState s fn = 1 → scrubOn s = false →
    rdf s Reg.SEC_TENANT 1 0 ≠ 2 → (getFn s fn).recs ≠ [] → (∀ x ∈ (getFn s fn).recs, x.2.valid = true) →
    let major := rdf s (Reg.HIF_HOST_VER fn) 15 8
    let minor := rdf s (Reg.HIF_HOST_VER fn) 7 0
    let refused (reason : Nat) : Prop := Completes (.instanceOpen fn) s (fun t =>
      rdf t (Reg.HIF_STATUS fn) 23 16 = reason ∧ rdb t (Reg.HIF_STATUS fn) 1 = true ∧
      rdb t (Reg.HIF_STATUS fn) 0 = rdb s (Reg.HIF_STATUS fn) 0 ∧
      RegsOnly s t [Reg.HIF_STATUS fn, Reg.HIF_EVCNT fn])
    (major = 3 → minor ≤ rdf s (Reg.HIF_FW_VER fn) 7 0 → Completes (.instanceOpen fn) s (fun t =>
      rdb t (Reg.HIF_STATUS fn) 0 = true ∧ instState t fn = 2 ∧ (getFn t fn).version = some (major, minor) ∧
      t.mem = s.mem)) ∧
    (major ≠ 3 → major ≠ 2 → refused 1) ∧
    (major = 3 → rdf s (Reg.HIF_FW_VER fn) 7 0 < minor → refused 2)

/-- Doorbells of the rings and the opening of an instance. -/
def Obligations.RingsAndInstances : Prop := RingDoorbells ∧ InstanceOpening

/-- R216, R222, R238: the entry at the head of the next pair's ring is consumed; a NOP completes with OK, an undefined
opcode with BAD_ENTRY, and an accepted query waits for its command; QUERY_COUNTS returns the instance's four counts. -/
def Obligations.EntryConsumption : Prop :=
  ∀ (s : State) (e : Ent) (r : RingRec) (k : Nat) (p : Pend), e.fn < 17 → e.prio < 4 → RingOpen s e r →
    let slot := r.sqBase + rdn s (Reg.HIF_SQ_HEAD e.fn e.prio) % 2 ^ r.sqLog2 * 64
    let ws := (getWords s slot 8).map (·.v)
    let w0 := (ws.getD 0 0).toNat
    let head (t : State) : Prop :=
      rdn t (Reg.HIF_SQ_HEAD e.fn e.prio) = (rdn s (Reg.HIF_SQ_HEAD e.fn e.prio) + 1) % 2 ^ 32
    (nextPair s = some k → passPair k = (e.fn, e.prio) → Reach s (.rime 0 .normal) slot 8 →
      (getWords s slot 8).any (·.p) = false → e.tag.toNat = w0 / 2 ^ 32 → scrubOn s = false →
      (w0 % 2 ^ 32 = 0 → (∀ x ∈ ws.drop 1, x = 0) → Completes .entryConsume s (fun t =>
        head t ∧ Answered s t e r 0 0 0 [])) ∧
      (0x50 < w0 % 2 ^ 8 → Completes .entryConsume s (fun t => head t ∧ Answered s t e r (w0 % 2 ^ 8) 0x08 0 [])) ∧
      (w0 % 2 ^ 32 = 0x44 → (ws.getD 1 0).toNat < 2 ^ 16 → (∀ x ∈ ws.drop 2, x = 0) →
        ((seqOf s (ws.getD 1 0).toNat).state = 0 ∨ (seqOf s (ws.getD 1 0).toNat).owner = e.fn) →
        Completes .entryConsume s (fun t => head t ∧ t.rime.pend = s.rime.pend ++
          [⟨s.rime.nextId, e, 0x44, false, ws.drop 1, nowN s, 0, 0, false, none⟩]))) ∧
    (Taken s e 0x50 [] p → Completes (.queryCounts e) s (fun t =>
      Answered s t e r 0x50 0 0 [(getFn s e.fn).submitted, (getFn s e.fn).completed, (getFn s e.fn).refused,
        (getFn s e.fn).fellBack]))

/-- R243, R312: a message that is due leaves unless its vector is masked, the function may not master the bus or one
left within the last microsecond; a log entry takes the next number and the slot it names. -/
def Obligations.MessagesAndLog : Prop :=
  ∀ (s : State) (fn vec proc lvl point last : Nat) (a0 a1 : Word) (c : LogCfg), fn < 17 → vec < 16 →
    (s.rime.msixPend.contains (fn, vec) = true →
      ((rdb s (Reg.MSIX_CTL fn vec) 0 = true ∨ (getFn s fn).bme = false) → Completes (.msixSend fn vec) s (fun t =>
        rdb t (Reg.MSIX_PBA fn) vec = true ∧ RegsOnly s t [Reg.MSIX_PBA fn])) ∧
      (rdb s (Reg.MSIX_CTL fn vec) 0 = false → (getFn s fn).bme = true →
        (Tab.find s.rime.msixLast (fn * 2048 + vec) = none → Completes (.msixSend fn vec) s (fun t =>
          t.out = .msix fn vec :: s.out ∧ rdb t (Reg.MSIX_PBA fn) vec = false ∧
          t.rime.msixPend.contains (fn, vec) = false ∧ SameRegs s t [Reg.MSIX_PBA fn] ∧ t.mem = s.mem)) ∧
        (Tab.find s.rime.msixLast (fn * 2048 + vec) = some last → nowN s < last + 1000 →
          Completes (.msixSend fn vec) s (fun t => t = s)))) ∧
    (live s proc = true → (live s 3 = true ∨ proc = 3) → s.rime.logCfg = some c → proc < 8 → lvl ≤ 3 → point < 256 →
      (lvl = 3 ∨ point = 0x0A ∨ (point < 64 ∧ bit c.mask point = true)) → Tab.find s.host.dirty 31 = none →
      let a := c.base + s.rime.logSeq % 2 ^ c.log2 * 32
      Reach s (.rime 3 .normal) a 4 → Completes (.logEntry proc lvl point a0 a1) s (fun t =>
        getWords t a 4 = [⟨now s, false⟩, ⟨BitVec.ofNat 64 (s.rime.logSeq % 2 ^ 32 + proc * 2 ^ 32 + lvl * 2 ^ 35 +
          point * 2 ^ 40), false⟩, ⟨a0, false⟩, ⟨a1, false⟩] ∧
        t.rime.logSeq = (s.rime.logSeq + 1) % 2 ^ 32 ∧ t.regs = s.regs ∧
        ∀ x, ¬ (a ≤ x ∧ x < a + 32) → getByte t x = getByte s x))

/-- Kernel `k` of an image has started on all its cores: RUNNING stands and the program counter is at its entry. -/
def KernelStarted (t : State) (i : Image) (k : Nat) : Prop :=
  ∀ n ∈ i.cores, running t n = true ∧ getPc t n = ((i.kernels[k]?).map (·.entry)).getD 0 % 2048

/-- The image can start at once: its cores are in service and idle, its channels idle, its clusters up, its code in its
stores, it keeps no context and is not twinned. -/
def ReadyImage (s : State) (i : Image) : Prop :=
  jobServed s i = true ∧ imgUp s i = true ∧ i.twin = false ∧ i.csBytes = 0 ∧ i.clBytes = 0 ∧
  codeResident s i = true ∧ (∀ c ∈ i.home, c < 16 ∧ chansIdle s c = true) ∧
  (∀ n ∈ i.cores, n < 128 ∧ running s n = false) ∧ (∀ x ∈ i.sems, x < 256) ∧ s.serac.slice = none

/-- R226, R228, R230, R232, R233, R235: an untimed job of an image that is ready starts its first kernel at once, and one
whose context is in place starts the kernel it stands at; the end of the last kernel completes the job with OK; a
cancellation removes a waiting job and marks a running one; the fall-back timer switches a job to its fall-back. -/
def Obligations.Jobs : Prop :=
  ∀ (s : State) (e : Ent) (r : RingRec) (p : Pend) (j : Job) (i f : Image) (image start w0 : Word) (args : List Word)
    (l : Nat) (q : Pend), RingOpen s e r →
    (Taken s e 0x01 (image :: start :: args) p → p.timed = false → imgOf s image = some i → ReadyImage s i →
      s.rime.jobs = [] → i.mis = [] → i.deadline = 0 → i.kernels ≠ [] → (i.safety = true ∨ s.power.emergHold = false) →
      (∀ x ∈ s.rime.pend, x.opcode = 0x01 → x.res = none → p.job ≤ x.job) →
      Completes (.jobRun e false image start args) s (fun t => KernelStarted t i 0 ∧
        ∃ j', t.rime.jobs = [j'] ∧ j'.serial = p.job ∧ j'.phase = .running ∧ j'.release = p.time)) ∧
    (s.rime.jobs = [j] → imgOf s j.run = some i → ReadyImage s i → j.phase = .switching → j.saved = false →
      (i.kernels[j.kernel]?).isSome = true → Completes (.contextSwitchDone j.serial) s (fun t =>
        KernelStarted t i j.kernel)) ∧
    (s.rime.jobs = [j] → imgOf s j.run = some i → jobServed s i = true → (∀ c ∈ i.home, c < 16) →
      j.run = j.image → j.phase = .running →
      j.cancelled = false → j.cancels = [] → j.timed = none → j.deadline = 0 → j.kernel + 1 = i.kernels.length →
      allHalted s i = true → pendOf s j.pid = some p → p.ent = e → p.opcode = 0x01 →
      Completes (.kernelEnd j.serial) s (fun t => t.rime.jobs = [] ∧
        Answered s t e r 0x01 0 0 [BitVec.ofNat 64 j.release] ∧
        (getFn t e.fn).completed = (getFn s e.fn).completed + 1)) ∧
    (Taken s e 0x02 [w0] p →
      (cancelTarget s e w0 = none → Completes (.jobCancel e w0) s (fun t => Answered s t e r 0x02 0x0B 0 [])) ∧
      (cancelTarget s e w0 = some q → imgOf s (q.words.getD 0 0) = none → q.ent.prio = e.prio →
        s.rime.jobs = [j] → j.serial = q.job →
        (j.phase = .waiting → pendOf s j.pid = some q → j.cancels = [] → Completes (.jobCancel e w0) s (fun t =>
          t.rime.jobs = [] ∧ pendOf t p.id = none ∧ pendOf t q.id = none)) ∧
        (j.phase = .running → Completes (.jobCancel e w0) s (fun t =>
          t.rime.jobs = [{ j with cancels := j.cancels ++ [p.id], cancelled := true }] ∧
          t.mem = s.mem ∧ t.regs = s.regs)))) ∧
    (s.rime.jobs = [j] → j.fbAt = some l → l ≤ nowN s → j.run = j.image → j.phase = .waiting → j.cancelled = false →
      imgOf s j.image = some i → i.fallback ≠ 0 → imgOf s i.fallback = some f → f.id ≠ j.image →
      Completes (.fallbackTimer j.serial) s (fun t =>
        ∃ j', t.rime.jobs = [j'] ∧ j'.serial = j.serial ∧ j'.run = f.id ∧ j'.reason = 1))

/-- R72, R231: a load whose checks fail completes with LOAD_REFUSED and the code of the first, and after one without
weights that passes them the image is loaded; an unload gives the image back, and is refused BUSY while a job of it is
in flight. -/
def Obligations.ImageLoads : Prop :=
  ∀ (s : State) (e : Ent) (r : RingRec) (p : Pend) (addr len code : Nat) (i : Image) (ms : List (Nat × MiDecl))
    (u : State) (image : Word), RingOpen s e r →
    let img := readImage s (fnLabel e.fn) addr len
    (Taken s e 0x10 [BitVec.ofNat 64 addr, BitVec.ofNat 64 len] p → live s 3 = true → s.firn.busy = none →
      Reach s (.rime 3 .normal) (addr / 8 * 8) (len / 8 + 2) →
      (loadChecks img.2 img.1 e.fn addr = .inl code → code < 256 → Completes (.modelLoad e addr len) s (fun t =>
        Answered s t e r 0x10 0x06 code [] ∧ t.rime.images = s.rime.images)) ∧
      (loadChecks img.2 img.1 e.fn addr = .inr (i, ms, u) → img.1.weights = 0 → Completes (.modelLoad e addr len) s
        (fun t => { i with loading := false } ∈ t.rime.images))) ∧
    (Taken s e 0x11 [image] p → s.firn.busy = none →
      (imgOf s image = none → Completes (.modelUnload e image) s (fun t => Answered s t e r 0x11 0x07 0 [])) ∧
      (imgOf s image = some i → imageInFlight s image = true → Completes (.modelUnload e image) s (fun t =>
        Answered s t e r 0x11 0x0A 0 [] ∧ t.rime.images = s.rime.images)) ∧
      (imgOf s image = some i → imageInFlight s image = false → (∀ x ∈ s.rime.images, x.fallback ≠ image) → i.mis = [] →
        (∀ x ∈ s.streams.cfg, x.1 < 128) → (∀ x ∈ i.minima, x.1 < 24) → i.drift < 8 → (∀ n ∈ i.cores, n < 128) →
        Completes (.modelUnload e image) s (fun t =>
          Answered s t e r 0x11 0 0 [] ∧ t.rime.images = s.rime.images.filter (fun x => x.id != i.id))))

/-- R161, R176, R239-R241, R270, R323, R406: a long operation begins under its entry; suspending marks a running one and
answers a suspended one at once, resuming continues it, cancelling ends a suspended one and marks a running one, and a
scrub cannot be cancelled; a MEM_FILL writes its pattern MiB by MiB and completes with its progress. -/
def Obligations.LongOperations : Prop :=
  ∀ (s : State) (e : Ent) (r : RingRec) (p : Pend) (o : LongOp) (base len mi pages addr slot : Nat)
    (w0 w1 w2 pattern w3 : Word) (cls : Nat), RingOpen s e r → serving s 3 = true →
    let n (x : Nat) : Word := BitVec.ofNat 64 x
    let begins (i : Instr) (k : LongKind) : Prop := Completes i s (fun t =>
      t.rime.longs = s.rime.longs ++ [⟨p.id, e, k, 0, false, [], [], false, false⟩] ∧
      pendOf t p.id = some { p with started := true } ∧ t.cores = s.cores)
    let one (f : LongOp → LongOp) : List LongOp := s.rime.longs.map (fun k => if k.pid = o.pid then f k else k)
    (Taken s e 0x30 [n base, n len, pattern, w3] p → begins (.memFill e base len pattern w3)
      (.memFill base len pattern (if bit w3 3 then w3.toNat % 8 else 7))) ∧
    (Taken s e 0x31 [w0, w1, w2] p → begins (.selftest e w0 w1 w2) (.selftest (w0.toNat % 16)
      (w0.toNat / 256 % 2 ^ 16) (w1.toNat % 2 ^ 48) (w2.toNat % 2 ^ 32) (bit w0 4))) ∧
    (Taken s e 0x34 [n mi, n pages] p → begins (.kvCompact e mi pages) (.kvCompact mi pages)) ∧
    (Taken s e 0x32 [n addr, n len, n slot] p → slot < 2 → s.power.boot = .ready → rdb s Reg.FW_STATUS 4 = false →
      (len ≤ 33554432 → rdb s Reg.FW_STATUS 0 = decide (slot = 0) →
        begins (.fwStage e addr len slot) (.fwStage addr len slot) ∧
        Completes (.fwStage e addr len slot) s (fun t => Tab.find t.power.slots slot = some {})) ∧
      (33554432 < len → Completes (.fwStage e addr len slot) s (fun t => Answered s t e r 0x32 0x01 0x03 []))) ∧
    (Taken s e 0x33 [] p →
      (s.rime.images = [] → aloneInFlight s p = true → begins (.tenantScrub e) .scrub ∧
        ((nvmCopy s 0).oldHalf < 2 → Completes (.tenantScrub e) s (fun t => rdn t Reg.SEC_TENANT = 2))) ∧
      (s.rime.images ≠ [] → Completes (.tenantScrub e) s (fun t => Answered s t e r 0x33 0x0A 0 []))) ∧
    (Taken s e 0x20 [w0] p → longAhead s p = false →
      (longTarget s e w0 = none → Completes (.longSuspend e w0) s (fun t => Answered s t e r 0x20 0x0B 0 [])) ∧
      (longTarget s e w0 = some o → o.suspended = true → Completes (.longSuspend e w0) s (fun t =>
        Answered s t e r 0x20 0 0 [n o.progress] ∧ t.rime.longs = s.rime.longs)) ∧
      (longTarget s e w0 = some o → o.suspended = false → Completes (.longSuspend e w0) s (fun t =>
        t.rime.longs = one (fun k => { k with suspendReqs := k.suspendReqs ++ [p.id] }) ∧ t.mem = s.mem))) ∧
    (Taken s e 0x21 [w0] p → longAhead s p = false → longTarget s e w0 = some o → o.suspended = true →
      Completes (.longResume e w0) s (fun t => Answered s t e r 0x21 0 0 [n o.progress] ∧
        t.rime.longs = one (fun k => { k with suspended := false }))) ∧
    (Taken s e 0x22 [w0] p → longAhead s p = false → longTarget s e w0 = some o →
      (o.kind = .scrub → Completes (.longCancel e w0) s (fun t =>
        Answered s t e r 0x22 0x09 0 [] ∧ t.rime.longs = s.rime.longs)) ∧
      (o.kind ≠ .scrub → o.suspended = false → Completes (.longCancel e w0) s (fun t =>
        t.rime.longs = one (fun _ => { o with cancelReqs := o.cancelReqs ++ [p.id], cancelled := true }) ∧
        t.mem = s.mem)) ∧
      (o.kind = .memFill base len pattern cls → o.suspended = true → Completes (.longCancel e w0) s (fun t =>
        t.rime.longs = s.rime.longs.filter (fun k => k.pid != o.pid)))) ∧
    (s.rime.longs.find? (fun k => k.ent == e && !k.suspended) = some o → longOf s o.pid = some o →
      o.kind = .memFill base len pattern cls → o.suspendReqs = [] → o.cancelReqs = [] → o.cancelled = false →
      o.own = false → len % 8 = 0 → o.progress * 2 ^ 20 < len → Reach s (.rime 3 .normal) base (len / 8) →
      let lo := base + o.progress * 2 ^ 20
      let size := min (len - o.progress * 2 ^ 20) (2 ^ 20)
      Completes (.longOpPoint e false) s (fun t =>
        (o.progress * 2 ^ 20 + 2 ^ 20 < len →
          (∀ k, k < 2 ^ 17 → getWord t (lo + 8 * k) = ⟨pattern, false⟩) ∧
          (∀ x, ¬ (lo ≤ x ∧ x < lo + size) → getByte t x = getByte s x) ∧
          t.rime.longs = one (fun _ => { o with progress := o.progress + 1 })) ∧
        (len ≤ o.progress * 2 ^ 20 + 2 ^ 20 → pendOf s o.pid = some p → p.ent = e → p.opcode = 0x30 →
          Answered s t e r 0x30 0 0 [n (o.progress + 1)] ∧
          t.rime.longs = s.rime.longs.filter (fun k => k.pid != o.pid))))

/-- R244-R248: a kick with the key reloads the watchdog and any other value does not; an expiry holds the processor in
reset with WDT_FIRED and RESTARTING, keeps its program counter and counts the epoch on; the end of a restart that has
nothing in flight clears RESTARTING. -/
def Obligations.WatchdogRestarts : Prop :=
  ∀ (s : State) (p : Nat) (val : BitVec 32) (pc : Word), p < 8 →
    (rdb s (Reg.RIME_STATUS p) 3 = false →
      (val = 0x4B1C → Completes (.wdtKick (.rime p .secure) p val) s (fun t =>
        rdn t (Reg.RIME_WDT_LEFT p) = rdf s (Reg.RIME_WDT_CTL p) 23 0 ∧ RegsOnly s t [Reg.RIME_WDT_LEFT p])) ∧
      (val ≠ 0x4B1C → Completes (.wdtKick (.rime p .secure) p val) s (fun t => t = s)) ∧
      (rdn s (Reg.RIME_WDT_LEFT p) = 0 → booted s = true → Tab.get [] s.rime.expiries p = [] →
        Completes (.watchdogExpiry p pc) s (fun t =>
          rdb t (Reg.RIME_STATUS p) 0 = false ∧ rdb t (Reg.RIME_STATUS p) 1 = true ∧
          rdb t (Reg.RIME_STATUS p) 2 = true ∧ rd t (Reg.RIME_LAST_PC p) = pc ∧
          fwEpoch t = (fwEpoch s + 1) % 2 ^ 32 ∧ rdb t Reg.SERAC_STATUS 8 = true))) ∧
    ((p = 1 ∨ p = 2) → rdb s (Reg.RIME_STATUS p) 1 = true → s.rime.jobs = [] → logInDram s →
      Completes (.rimeRestartComplete p) s (fun t =>
        rdb t (Reg.RIME_STATUS p) 1 = false ∧ rdb t (Reg.RIME_STATUS p) 0 = true ∧ t.cores = s.cores))

/-! ### Serac (09) -/

/-- R251, R252, R254, R255, R276: a heartbeat clears the count of missed ones and the fourth missed in a row, signatures
that differ and input copies that disagree four times lose the pair: it leaves SERAC_STATUS, cause SERAC holds the
pin, and the survivor orders a whole-device restart; a pair that rejoins a live one is back. -/
def Obligations.SeracPairs : Prop :=
  ∀ (s : State) (pair n : Nat) (arrived : Bool) (x y : Word) (tries : List (Word × Word)), pair < 2 →
    let lost (i : Instr) : Prop := s.serac.lost = [] → s.serac.devRestart = false → s.power.boot = .ready →
      Completes i s (fun t => t.serac.lost = [pair] ∧ t.serac.devRestart = true ∧ t.power.boot = .started ∧
        t.rime.jobs = [] ∧ t.rime.pend = [] ∧
        (s.rime.images = [] → s.rime.longs = [] → s.serac.slice = none →
          rdb t Reg.SERAC_STATUS (9 + pair) = false ∧ rdb t Reg.SERAC_HOLD 4 = true ∧ rdb t Reg.SERAC_HOLD 31 = true))
    (s.serac.lost.contains pair = false → Tab.get 0 s.serac.missed pair = n →
      (arrived = true ∨ n < 3 → Completes (.seracHeartbeat pair arrived) s (fun t =>
        Tab.get 0 t.serac.missed pair = (if arrived then 0 else n + 1) ∧
        t = { s with serac := { s.serac with missed := t.serac.missed } })) ∧
      (arrived = false → 3 ≤ n → lost (.seracHeartbeat pair arrived))) ∧
    (x = y → Completes (.lockstepWindow pair x y) s (fun t => t = s)) ∧
    (x ≠ y → lost (.lockstepWindow pair x y)) ∧
    (4 ≤ tries.length → (∀ e ∈ tries.take 4, e.1 ≠ e.2) → lost (.seracInputLatch pair tries)) ∧
    ((∃ e ∈ tries.take 4, e.1 = e.2) → Completes (.seracInputLatch pair tries) s (fun t => t = s)) ∧
    (s.serac.lost = [pair] → Completes (.seracPairRejoin pair) s (fun t =>
      t.serac.lost = [] ∧ rdb t Reg.SERAC_STATUS (9 + pair) = true ∧ rdb t Reg.SERAC_HOLD 4 = false ∧
      SameRegs s t [Reg.SERAC_STATUS, Reg.SERAC_HOLD] ∧ t.mem = s.mem ∧ t.cores = s.cores))

/-- R259-R263: two submissions of one number that agree leave the comparator and change nothing else; ones that differ,
and one whose partner is absent, stop both cores and go to Serac with their kind; Serac reruns the kernel of a pair's
first mismatch in time, and retires a SUSPECT pair and switches the job to its fall-back with reason 2. -/
def Obligations.TwinMismatches : Prop :=
  ∀ (s : State) (c i : Nat) (a b : TwinSub) (m : Mismatch) (ms : List Mismatch) (j : Job) (x f : Image),
    c < 16 → i < 4 →
    let n := 8 * c + 2 * i
    let stops (k : Instr) (kind : Nat) : Prop := logInDram s →
      (∀ j' x', jobOn s n = some j' → imgOf s j'.run = some x' → ∀ h ∈ x'.home, h < 16) → Completes k s (fun t =>
        t.serac.mism = s.serac.mism ++ [⟨c, i, kind⟩] ∧ running t n = false ∧ running t (n + 1) = false ∧
        rdb t Reg.SERAC_STATUS 1 = true ∧ (∀ z ∈ (getClu t c).subs, z.core ≠ n ∧ z.core ≠ n + 1))
    (subPair s c i = some (a, some b) → a.gap = false → b.gap = false →
      (a.sig = b.sig → Completes (.twinCompare c i) s (fun t =>
        (getClu t c).subs = (getClu s c).subs.filter (fun z => z != a && z != b) ∧ t.regs = s.regs ∧ t.mem = s.mem)) ∧
      (a.sig ≠ b.sig → stops (.twinCompare c i) 0)) ∧
    (subPair s c i = some (a, none) → stops (.twinAbsentTimeout c i) 1 ∧
      (a.gap = false → Completes (.twinCompare c i) s (fun t => t = s)) ∧
      (a.gap = true → stops (.twinCompare c i) 2)) ∧
    (s.serac.mism = m :: ms → m.cluster = c → m.pair = i → s.serac.lost = [] → jobOn s n = some j →
      s.rime.jobs = [j] → imgOf s j.run = some x → jobServed s x = true → j.phase = .decide →
      (rdb s Reg.SERAC_PAIR_SUSPECT (4 * c + i) = true → fallbackOf s j = some f → f.id ≠ j.image → j.cancelled = false →
        Completes .mismatchDecision s (fun t => t.serac.mism = ms ∧
          (getCore t n).inService = false ∧ (getCore t (n + 1)).inService = false ∧
          ∃ j', t.rime.jobs = [j'] ∧ j'.serial = j.serial ∧ j'.run = f.id ∧ j'.reason = 2)) ∧
      (rdb s Reg.SERAC_PAIR_SUSPECT (4 * c + i) = false → j.rerunPair = none → j.hadMismatch = false →
        6 * nowN s + wcetRem x j.kernel * imgDiv s x ≤ 6 * j.deadline → (x.kernels[j.kernel]?).isSome = true →
        (∀ h ∈ x.home, h < 16) → (∀ k ∈ x.sems, k < 256) → (∀ k ∈ x.cores, k < 128 ∧ running s k = false) →
        s.serac.slice = none → logInDram s → Completes .mismatchDecision s (fun t =>
          t.serac.mism = ms ∧ KernelStarted t x j.kernel ∧
          ∃ j', t.rime.jobs = [j'] ∧ j'.phase = .rerun ∧ j'.rerunPair = some (c, i))))

/-- R266-R268, R272: a window with one release and one completion in place clears MISSES; one with neither sets
RELEASE_MISS and DEADLINE_MISS and counts, and at MISS_LIMIT cause TASK holds the pin; a window's opening abandons the
running slice and restores what it saved. -/
def Obligations.TaskWindows : Prop :=
  ∀ (s : State) (n : Nat) (x : Slice), n < 32 → taskOn s n = true → (getTask s n).live = true →
    let w := (taskOffset s n + (getTask s n).win * taskPeriod s n) * 1000
    let inside (l : List Nat) (len : Nat) : Nat := (l.filter (fun u => decide (w ≤ u ∧ u ≤ w + len * 1000))).length
    let rel := inside (getTask s n).releases (taskRelTol s n)
    let comp := inside (getTask s n).completions (taskBudget s n)
    (w + taskBudget s n * 1000 ≤ nowN s → s.serac.lost = [] → Tab.find s.serac.waitGood n = none →
      (rel = 1 → comp = 1 → rdb s (Reg.TASK_STATE n) 27 = false → Completes (.taskWindowJudge n) s (fun t =>
        rdf t (Reg.TASK_STATE n) 23 16 = 0 ∧ (getTask t n).win = (getTask s n).win + 1 ∧
        SameRegs s t [Reg.TASK_STATE n] ∧ t.mem = s.mem)) ∧
      (rel = 0 → comp = 0 → rdf s (Reg.TASK_STATE n) 23 16 < 255 → Completes (.taskWindowJudge n) s (fun t =>
        rdb t (Reg.TASK_STATE n) 24 = true ∧ rdb t (Reg.TASK_STATE n) 25 = true ∧ rdb t Reg.SERAC_STATUS 3 = true ∧
        rdf t (Reg.TASK_STATE n) 23 16 = rdf s (Reg.TASK_STATE n) 23 16 + 1 ∧
        (getTask t n).win = (getTask s n).win + 1 ∧
        (taskMissLimit s n ≤ rdf s (Reg.TASK_STATE n) 23 16 + 1 →
          rdb t (Reg.TASK_STATE n) 27 = true ∧ rdb t Reg.SERAC_HOLD 2 = true ∧ rdb t Reg.SERAC_HOLD 31 = true)))) ∧
    (taskOffset s n * 1000 ≤ nowN s →
      (s.serac.slice = none → Completes (.safetyWindowOpen n) s (fun t => t = s)) ∧
      (s.serac.slice = some x → (x.saved.map (·.1)).Nodup → Reg.SERAC_ST_ABANDON ∉ x.saved.map (·.1) →
        Completes (.safetyWindowOpen n) s (fun t => t.serac.slice = none ∧ (∀ y ∈ x.saved, rd t y.1 = y.2) ∧
          SameRegs s t (Reg.SERAC_ST_ABANDON :: x.saved.map (·.1)))))

/-- R269, R270-R274: a slice starts only on an idle target outside the windows, with write-back on, and is counted as
deferred inside them; a slice that fails takes its unit out of service and sets ST_FAIL; the age of the last full pass
is kept; a checker that does not report at a start releases no die and holds the pin; a rail out of its range for the
fourth sample in a row is a breach, FE 0x6B on a compute die and 0x89 on the package. -/
def Obligations.SelfTestAndRails : Prop :=
  ∀ (s : State) (o : LongOp) (n bit_ rail mv k u b l : Nat), n < 128 → bit_ < 10 → rail < 16 →
    (s.serac.slice = none → selftestOp s = some o → nextSlice s o = some (0, n) → running s n = false →
      (windowOpen s = true → rdn s Reg.SERAC_ST_DEFER < 2 ^ 32 - 1 → Completes .selftestSliceStart s (fun t =>
        rdn t Reg.SERAC_ST_DEFER = rdn s Reg.SERAC_ST_DEFER + 1 ∧ RegsOnly s t [Reg.SERAC_ST_DEFER])) ∧
      (windowOpen s = false → windowClear s = true → Completes .selftestSliceStart s (fun t =>
        (t.serac.slice).map (fun x => (x.kind, x.unit, x.pid)) = some (0, n, o.pid) ∧
        rdb t (Reg.DIE_MEM_CTL (n / 32)) 1 = true ∧ rdb t (Reg.MEM_CTL (2 * (n / 32))) 0 = true ∧
        rdb t (Reg.MEM_CTL (2 * (n / 32) + 1)) 0 = true ∧ t.mem = s.mem))) ∧
    (s.serac.slice = some ⟨0, n, o.pid, []⟩ → longOf s o.pid = some o → o.kind = .selftest k u b l true →
      o.suspendReqs = [] → o.cancelled = false →
      let goesOn (t : State) : Prop := t.serac.slice = none ∧ t.mem = s.mem ∧ t.rime.longs =
        s.rime.longs.map (fun x => if x.pid = o.pid then { o with progress := o.progress + 1 } else x)
      Completes (.selftestSliceEnd false) s (fun t => goesOn t ∧ (getCore t n).inService = false ∧
        rdb t Reg.SERAC_STATUS 5 = true ∧ SameRegs s t [Reg.SERAC_STATUS, Reg.SERAC_EVCNT]) ∧
      Completes (.selftestSliceEnd true) s (fun t => goesOn t ∧
        (ServUnit.core n ∈ t.serac.passed) ∧ (getCore t n).inService = (getCore s n).inService ∧
        SameRegs s t [Reg.SERAC_PAIR_SUSPECT])) ∧
    (selftestOp s = none → Completes .selftestAgeCheck s (fun t =>
      rdn t Reg.SERAC_ST_AGE = min ((nowN s - s.serac.lastPass) / 1000000) (2 ^ 32 - 1) ∧
      RegsOnly s t [Reg.SERAC_ST_AGE])) ∧
    (s.serac.injWait.contains bit_ = true → s.power.boot ≠ .ready → Completes (.injectionTimeout bit_) s (fun t =>
      rdb t Reg.SERAC_INJ_RESULT bit_ = false ∧ rdb t Reg.SERAC_STATUS 6 = true ∧ rdb t Reg.SERAC_HOLD 1 = true ∧
      rdb t Reg.SERAC_HOLD 31 = true ∧ (∀ d, d < 4 → (getDie t d).inService = false) ∧ t.mem = s.mem)) ∧
    (s.power.boot = .ready →
      (railOut s rail mv = false → Completes (.railSample rail mv) s (fun t =>
        Tab.get 0 t.serac.railCnt rail = 0 ∧ t.regs = s.regs ∧ t.mem = s.mem)) ∧
      (railOut s rail mv = true → Tab.get 0 s.serac.railCnt rail < 3 → Completes (.railSample rail mv) s (fun t =>
        Tab.get 0 t.serac.railCnt rail = Tab.get 0 s.serac.railCnt rail + 1 ∧ t.regs = s.regs ∧ t.mem = s.mem)) ∧
      (railOut s rail mv = true → Tab.get 0 s.serac.railCnt rail = 3 → Completes (.railSample rail mv) s (fun t =>
        Tab.get 0 t.serac.railCnt rail = 4 ∧
        (rail < 4 → rdb t (Reg.ERR_STATUS .die rail) 3 = true ∧ rdf t (Reg.ERR_STATUS .die rail) 23 16 = 0x6B ∧
          t.reports = s.reports ++ [⟨.die, rail, .fe, 0x6B, 0, false⟩]) ∧
        (4 ≤ rail → PackageFatal s t 0x89 rail))))

/-- R274-R278: a package FE orders a whole-device restart and a die fault a die restart, which closes the die's links,
puts its DRAM in self refresh and takes it out of service; CLASS0_SHORT holds the pin while the shortfall stands; the
die's restart ends with its links open; the device is ready again once its firmware has booted; a core that has
passed returns at a scheduling epoch. -/
def Obligations.RestartsAndReturn : Prop :=
  ∀ (s : State) (ev : FaultEv) (es : List FaultEv) (d src n : Nat) (pass : Bool), d < 4 → n < 128 →
    (s.serac.pend = ev :: es → s.serac.lost = [] →
      (ev = .package src → s.serac.devRestart = false → s.power.boot = .ready →
        Completes .seracFaultResponse s (fun t => t.serac.devRestart = true ∧ t.power.boot = .started ∧
          t.rime.jobs = [] ∧ t.rime.pend = [])) ∧
      (ev = .die d src → es = [] → s.serac.devRestart = false → s.serac.stayOut = [] → s.serac.restarting = [] →
        Tab.get [] s.serac.dieHist d = [] → Completes .seracFaultResponse s (fun t =>
          t.serac.restarting = [d] ∧ (getDie t d).linksClosed = true ∧ (getDie t d).selfRefresh = true ∧
          (getDie t d).inService = false)) ∧
      (ev = .class0 → Completes .seracFaultResponse s (fun t => rdb t Reg.SERAC_STATUS 7 = true ∧ t.serac.pend = es ∧
        (rdb s Reg.DRIFT_STATUS 4 = true → rdb t Reg.SERAC_HOLD 3 = true ∧ rdb t Reg.SERAC_HOLD 31 = true) ∧
        t.mem = s.mem))) ∧
    (s.serac.restarting = [d] → (getDie s d).held = [] → Completes (.dieRestartDone d pass) s (fun t =>
      t.serac.restarting = [] ∧ (getDie t d).linksClosed = false ∧ (getDie t d).selfRefresh = false ∧
      (pass = true → s.serac.stayOut = [] → ServUnit.die d ∈ t.serac.passed) ∧
      (pass = false → t.serac.stayOut.contains d = true) ∧ t.regs = s.regs ∧ t.mem = s.mem)) ∧
    (s.serac.devRestart = true →
      ((firmwareBoot (loadSettings s)).power.boot = .started → Completes .deviceRestartReady s (fun t =>
        t.serac.devRestart = false ∧ t.power.boot = .ready)) ∧
      ((firmwareBoot (loadSettings s)).power.boot ≠ .started → Completes .deviceRestartReady s (fun t =>
        t.serac.devRestart = false ∧ t.power.boot ≠ .ready))) ∧
    (s.serac.devRestart = false → Completes .deviceRestartReady s (fun t => t = s)) ∧
    (serving s 0 = true → s.rime.jobs = [] → s.serac.out = [.core n] → mayReturn s (.core n) = true →
      Completes .schedEpoch s (fun t => (getCore t n).inService = true ∧ t.serac.out = [] ∧
        t.firn.tc = s.firn.tc.filter (fun e => e.die != n / 32) ∧ t.regs = s.regs ∧ t.mem = s.mem))

/-! ### Baseth (10) -/

/-- The package counts a CE with a SOURCE (R25, R30), which is not reported further. -/
def PackageCe (s t : State) (src : Nat) : Prop :=
  rdb t (Reg.ERR_STATUS .package 0) 0 = true ∧ rdf t (Reg.ERR_STATUS .package 0) 23 16 = src ∧
  t.reports = s.reports ∧ t.mem = s.mem ∧ t.cores = s.cores

/-- R284-R287, R297: a flit is accepted only with a good CRC and the next LSEQ, and one that had failed counts CE 0xA0;
else it is discarded and NAK names the last accepted; the second failure of one flit retires the lane that flagged it,
and the port retrains, or goes down with too few lanes; a retrain resends what is not acknowledged; a neighbour with
another plan is not admitted. A return is prepared, answered, joined at its instant or left out with BOND_FAIL. -/
def Obligations.Links : Prop :=
  ∀ (s : State) (p l lanes mask : Nat) (f : Flit) (flagged : List Nat) (peer dl e : Word) (pp gen hash errs : Nat)
    (ready whole : Bool) (r : ReturnSt), p < 8 → l < 4 →
    let x := getPort s p
    let st := Reg.PORT_STATUS p
    let want := (x.rxLast + 1) % 4096
    let down (t : State) : Prop := portUp t p = false ∧ (getPort t p).down = true ∧ rdb t st 10 = true ∧
      PackageCe s t 0xA2
    let out (t : State) : Prop := (getPort t p).ret = none ∧ rdb t st 12 = false ∧ t.mem = s.mem
    (portUp s p = true → x.training = false → x.vcq = [] →
      (f.crcOk = true → f.lseq = want → f.nak = false → f.kind ≠ 0 → f.kind ≠ 5 → f.dst = ownId s →
        Completes (.flitReceive p f flagged) s (fun t =>
          (getPort t p).rxLast = want ∧ (getPort t p).nakSent = false ∧
          t.out.head? = some (.notice "conduit" "flit" f.conduit) ∧
          (x.nakSent = true → PackageCe s t 0xA0) ∧ (x.nakSent = false → t.regs = s.regs ∧ t.mem = s.mem))) ∧
      (f.crcOk = false ∨ f.lseq ≠ want → ¬ (f.crcOk = false ∧ f.lseq = want ∧ x.failedOnce = some want) →
        x.nakSent = false → Completes (.flitReceive p f flagged) s (fun t =>
          (∃ g, t.out = .flit p g :: s.out ∧ g.nak = true ∧ g.ackSeq = x.rxLast) ∧
          (getPort t p).rxLast = x.rxLast ∧ (getPort t p).nakSent = true ∧ t.regs = s.regs ∧ t.mem = s.mem)) ∧
      (f.crcOk = false → f.lseq = want → x.failedOnce = some want → flagged = [l] → Nat.testBit (portLanes s p) l = true →
        (2 < laneCount (portLanes s p) → rdb s st 1 = false → Completes (.flitReceive p f flagged) s (fun t =>
          rdb t st (2 + l) = false ∧ rdb t st (6 + l) = true ∧ (getPort t p).training = true ∧
          (getPort t p).replay = x.replay ∧ PackageCe s t 0xA1)) ∧
        (laneCount (portLanes s p) ≤ 2 ∨ rdb s st 1 = true → x.replay = [] →
          Completes (.flitReceive p f flagged) s down))) ∧
    (x.training = true → x.vcq = [] →
      Completes (.portRetrainDone p true) s (fun t => getPort t p = { x with training := false } ∧
        t.out = (x.replay.map (fun g => Out.flit p g)).reverse ++ s.out ∧ SameRegs s t [Reg.PORT_RETRIES p] ∧
        t.mem = s.mem) ∧
      (x.replay = [] → Completes (.portRetrainDone p false) s down)) ∧
    (portUp s p = true → x.replay = [] → x.vcq = [] → Completes (.portPeerTimeout p) s down) ∧
    (rdb s Reg.BASETH_CTL 0 = true → rdb s (Reg.PORT_CTL p) 0 = true → rdf s (Reg.PORT_CTL p) 2 1 = 0 →
      portUp s p = false → x.down = false →
      (hash % 2 ^ 32 = ownHash s → Completes (.portTrain p peer pp gen hash) s (fun t =>
        portUp t p = true ∧ portLanes t p = 15 ∧ rdf t st 9 6 = 0 ∧ rd t (Reg.PORT_PEER p) = peer ∧
        rdn t (Reg.PORT_PEER_PORT p) = pp % 8 + 8 ∧
        SameRegs s t [st, Reg.PORT_PEER p, Reg.PORT_PEER_PORT p] ∧ t.mem = s.mem)) ∧
      (hash % 2 ^ 32 ≠ ownHash s → Completes (.portTrain p peer pp gen hash) s (fun t =>
        rdb t Reg.BASETH_STATUS 3 = true ∧ RegsOnly s t [Reg.BASETH_STATUS, Reg.BASETH_EVCNT]))) ∧
    (fabricManaged s = true → x.ret = none → portUp s p = !whole → mask = (if whole then 15 else lanes &&& rdf s st 9 6) →
      mask ≠ 0 → Completes (.returnPrepare p lanes whole dl) s (fun t =>
        (getPort t p).ret = some { lanes := mask, whole := whole, deadline := dl } ∧ rdb t st 12 = true ∧
        SameRegs s t [st] ∧ t.mem = s.mem)) ∧
    (x.ret = some r →
      (r.committed = none → nowN s ≤ r.deadline.toNat →
        (errs = 0 ∧ ready = true ∧ e.toNat ≤ r.deadline.toNat → Completes (.returnAnswer p errs ready e) s (fun t =>
          (getPort t p).ret = some { r with committed := some e } ∧ (.fabric "READY" p 0) ∈ t.out ∧
          t.regs = s.regs ∧ t.mem = s.mem)) ∧
        (errs ≠ 0 ∨ ready = false ∨ r.deadline.toNat < e.toNat →
          Completes (.returnAnswer p errs ready e) s (fun t => out t ∧
            (.fabric (if errs = 0 then "READY" else "REFUSE") p 0) ∈ t.out ∧ SameRegs s t [st]))) ∧
      Completes (.returnAbort p) s (fun t => out t ∧ SameRegs s t [st]) ∧
      (r.committed = none → r.deadline.toNat ≤ nowN s →
        Completes (.returnDeadline p) s (fun t => out t ∧ SameRegs s t [st])) ∧
      (r.committed = some e → e.toNat + 2000 ≤ nowN s → Completes (.bondMarkerTimeout p) s (fun t => out t ∧
        rdb t Reg.BASETH_STATUS 5 = true ∧ SameRegs s t [st, Reg.BASETH_STATUS, Reg.BASETH_EVCNT])) ∧
      (r.committed = some e → e.toNat ≤ nowN s → nowN s ≤ e.toNat + 2000 → x.vcq = [] → r.whole = false → r.lanes < 16 →
        Completes (.returnCommit p true) s (fun t => out t ∧ portLanes t p = portLanes s p ||| r.lanes ∧
          rdf t st 9 6 = rdf s st 9 6 &&& (15 - r.lanes) ∧ SameRegs s t [st]) ∧
        Completes (.returnCommit p false) s (fun t => (getPort t p).ret = some { r with marked := true } ∧
          t.regs = s.regs ∧ t.mem = s.mem)))

/-- R288-R290, R296, R299-R304: the eligible device of the lowest identity is the manager and the next the backup, and a
device admitted at (x, y, z) gets ID x + 16y + 128z; the backup takes over after 50 ms and IDs stand; a link map waits
for its instant 2 ms ahead and 10 ms after the last, and then BASETH_EPOCH moves on and conduits with unacknowledged
slots hold; stale flits are discarded. A conduit's slot takes a signal and a credit; a message is taken with its tag,
its counter and its place right, else the conduit faults with 0xA4 or 0xA5; acknowledgements and credits count. -/
def Obligations.FabricAndConduits : Prop :=
  ∀ (s : State) (peers : List FmPeer) (x y z n : Nat) (wired : Bool) (links m : List LinkRec) (e : Word) (msg : CndMsg)
    (k : KeySlot), x < 16 → y < 8 → z < 8 → n < 64 → s.rime.jobs = [] →
    let me := BitVec.ofNat 64 (deviceUid s)
    let inE (u : Word) : Prop := (rdb s Reg.BASETH_CTL 1 = true ∧ u = me) ∨
      ∃ q ∈ peers, q.uid = u ∧ q.eligible = true ∧ q.tabden = false
    let f := s.baseth.plan
    let cst := Reg.CND_STATUS n
    let send := rdb s (Reg.CND_CTL n) 1
    let sem1 := cndSem s n false
    let sem2 := cndSem s n true
    let slotB := rdf s (Reg.CND_SLOT n) 23 0
    let slots := rdf s (Reg.CND_SLOT n) 31 24
    let far (l : Option Word) : Prop := ∀ w, l = some w → w.toNat + 10000000 ≤ e.toNat
    (rdb s Reg.BASETH_CTL 0 = true → live s 2 = true →
      ((∃ u, inE u) → (wired = true ∧ x < f.dx ∧ y < f.dy ∧ z < f.dz) →
        Completes (.fmElection peers x y z wired) s (fun t =>
          inE t.baseth.fmUid ∧ (∀ u, inE u → t.baseth.fmUid.toNat ≤ u.toNat) ∧
          (∀ u, inE u → u ≠ t.baseth.fmUid → inE t.baseth.backupUid ∧ t.baseth.backupUid ≠ t.baseth.fmUid ∧
            t.baseth.backupUid.toNat ≤ u.toNat) ∧
          ownId t = x + 16 * y + 128 * z ∧ rdb t Reg.BASETH_STATUS 0 = true ∧
          (rdb t Reg.BASETH_STATUS 1 = true ↔ t.baseth.fmUid = me) ∧
          SameRegs s t [Reg.BASETH_COORD, Reg.BASETH_STATUS, Reg.BASETH_FM] ∧ t.mem = s.mem)) ∧
      ((∃ u, inE u) → ¬ (wired = true ∧ x < f.dx ∧ y < f.dy ∧ z < f.dz) →
        Completes (.fmElection peers x y z wired) s (fun t =>
          rdb t Reg.BASETH_STATUS 0 = false ∧ rdb t Reg.BASETH_STATUS 3 = true ∧
          SameRegs s t [Reg.BASETH_STATUS, Reg.BASETH_EVCNT] ∧ t.mem = s.mem)) ∧
      ((∀ u, ¬ inE u) → Completes (.fmElection peers x y z wired) s (fun t =>
        t.baseth.noFm = true ∧ t.regs = s.regs ∧ t.mem = s.mem))) ∧
    (rdb s Reg.BASETH_STATUS 2 = true → s.baseth.fmHeard + 50000000 ≤ nowN s → live s 2 = true →
      Completes .fmTakeover s (fun t => rdb t Reg.BASETH_STATUS 1 = true ∧ rdb t Reg.BASETH_STATUS 2 = false ∧
        rdf t Reg.BASETH_FM 9 0 = ownId s ∧ SameRegs s t [Reg.BASETH_STATUS, Reg.BASETH_FM] ∧ t.mem = s.mem)) ∧
    (fabricManaged s = true →
      (nowN s + 2000000 ≤ e.toNat → far s.baseth.lastEpoch → Completes (.linkMapDistribute links e) s (fun t =>
        t.baseth.next = some (links, e) ∧ t.regs = s.regs ∧ t.mem = s.mem)) ∧
      (e.toNat < nowN s + 2000000 ∨ ¬ far s.baseth.lastEpoch →
        Completes (.linkMapDistribute links e) s (fun t => t = s))) ∧
    (s.baseth.next = some (m, e) → e.toNat ≤ nowN s → Completes .fabricEpoch s (fun t =>
      rdn t Reg.BASETH_EPOCH = (rdn s Reg.BASETH_EPOCH + 1) % 2 ^ 32 ∧ rdb t Reg.BASETH_STATUS 4 = true ∧
      Tab.get [] t.baseth.maps (rdn t Reg.BASETH_EPOCH % 2) = m ∧
      ((getCnd s n).unacked ≠ 0 → (getCnd t n).hold = true) ∧
      SameRegs s t [Reg.BASETH_EPOCH, Reg.BASETH_STATUS, Reg.BASETH_EVCNT] ∧ t.mem = s.mem)) ∧
    (s.baseth.lastEpoch = some e → e.toNat + 1000000 ≤ nowN s → Completes .staleFlitDiscard s (fun t =>
      (∀ p, p < 8 → (getPort t p).vcq =
        (getPort s p).vcq.filter (fun g => g.epoch == (rdn s Reg.BASETH_EPOCH % 2 == 1))) ∧ t.mem = s.mem)) ∧
    (conduitOn s n = true → Tab.find s.baseth.keys (rdf s (Reg.CND_PEER n) 28 24) = some k →
      (send = true → 1 ≤ semGet s sem1 → 0 < rdf s cst 17 10 → (getCnd s n).hold = false → 64 ≤ slotB → slotB ≤ 14336 →
        Reach s .conduit (rdf s (Reg.CND_LOCAL n) 47 0 + (getCnd s n).slot % slots * slotB) (slotB / 8) →
        rdn s (Reg.CND_COUNT n) < 2 ^ 64 - 1 → Completes (.conduitTrigger n) s (fun t =>
          semGet t sem1 = semGet s sem1 - 1 ∧ rdf t cst 17 10 = rdf s cst 17 10 - 1 ∧
          (getCnd t n).slot = (getCnd s n).slot + 1 ∧ (getCnd t n).unacked = (getCnd s n).unacked + 1 ∧
          rdn t (Reg.CND_COUNT n) = rdn s (Reg.CND_COUNT n) + 1 ∧
          (∃ q, .conduitMsg n q ∈ t.out ∧ q.len = slotB ∧ q.offset = 0 ∧ q.last = true ∧
            q.slot = (getCnd s n).slot % slots ∧ q.counter.toNat = rdn s (Reg.CND_COUNT n) + 1) ∧ t.mem = s.mem)) ∧
      (send = false →
        let ad := cndAad (ownId s) (rdf s (Reg.CND_PEER n) 9 0) (rdf s (Reg.CND_PEER n) 15 10) msg
        let a := rdf s (Reg.CND_REMOTE n) 47 0 + msg.slot * slotB + msg.offset
        let good := Config.gcmTag k.key msg.counter.toNat ad msg.cipher = msg.tag
        let next := msg.counter.toNat = rdn s (Reg.CND_COUNT n) + 1
        let inside := msg.slot < slots ∧ msg.offset + msg.len ≤ slotB
        (¬ good ∨ ¬ next ∨ ¬ inside → Completes (.conduitMessage n msg) s (fun t =>
          rdb t cst 1 = true ∧ rdb t cst 0 = false ∧ rdf t cst 9 2 = (if good then 0xA5 else 0xA4) ∧
          rd t (Reg.CND_COUNT n) = rd s (Reg.CND_COUNT n) ∧ t.mem = s.mem)) ∧
        (good → next → inside → msg.len % 8 = 0 → Reach s .conduit a (msg.len / 8) →
          Tab.find s.host.dirty (rdf s (Reg.CND_PEER n) 23 19) = none → Completes (.conduitMessage n msg) s (fun t =>
            rd t (Reg.CND_COUNT n) = msg.counter ∧
            (∀ i, i < msg.len / 8 → getWord t (a + 8 * i) =
              ⟨(Config.gcmOpen k.key msg.counter.toNat ad msg.cipher).getD i 0, msg.poisoned.contains i⟩) ∧
            (∀ b, b < a ∨ a + msg.len ≤ b → getByte t b = getByte s b) ∧
            (msg.last = true → semGet t sem1 = min (semGet s sem1 + 1) 0xFFFF ∧
              t.out.head? = some (.fabric "CONDUIT_ACK" (rdf s (Reg.CND_PEER n) 15 0) msg.slot)))))) ∧
    (conduitOn s n = true →
      (send = true → 0 < (getCnd s n).unacked → Completes (.conduitAck n) s (fun t =>
        (getCnd t n).unacked = (getCnd s n).unacked - 1 ∧ semGet t sem2 = min (semGet s sem2 + 1) 0xFFFF ∧
        SameRegs s t [semReg sem2] ∧ t.mem = s.mem)) ∧
      (send = true → rdf s cst 17 10 < slots → Completes (.conduitFree n) s (fun t =>
        rdf t cst 17 10 = rdf s cst 17 10 + 1 ∧ RegsOnly s t [cst])) ∧
      (send = false → 1 ≤ semGet s sem2 → Completes (.conduitFree n) s (fun t =>
        semGet t sem2 = semGet s sem2 - 1 ∧ SameRegs s t [semReg sem2] ∧
        t.out = .fabric "CONDUIT_CREDIT" (rdf s (Reg.CND_PEER n) 15 0) 0 :: s.out ∧ t.mem = s.mem)))

/-! ### The host interface (11) -/

/-- The mailbox is free and its processor serves the request of an instance that exists (R315). -/
def MailboxOpen (s : State) (m : Mbx) : Prop :=
  rdb s (Reg.MBX_STATUS 16) 0 = false ∧ mbxBusy s = false ∧ m.inst ≤ 16

/-- The request completes with a status and results, BUSY 0 and DONE set, and of the state it leaves `P` holds (R315). -/
def MailboxAnswers (i : Instr) (s : State) (m : Mbx) (status : Nat) (res : List Word) (P : State → Prop) : Prop :=
  Completes i s (fun t => t.out.head? = some (.mailbox m.tag status) ∧
    rd t (Reg.MBX_RESP 16 0) = BitVec.ofNat 64 (status + m.tag.toNat * 2 ^ 32) ∧
    (∀ k, k < 7 → rd t (Reg.MBX_RESP 16 (k + 1)) = res.getD k 0) ∧
    rdb t (Reg.MBX_STATUS 16) 0 = false ∧ rdb t (Reg.MBX_STATUS 16) 1 = true ∧ P t)

/-- The pieces of the host interface a refused request leaves alone. -/
def HostSame (s t : State) : Prop :=
  t.host = s.host ∧ t.rime = s.rime ∧ t.mem = s.mem ∧ ∀ n, instState t n = instState s n

/-- R314-R318: INST_CONFIG takes records in DISABLED and CONFIGURED, INST_QUIESCE drains an OPEN instance, which is
INSTANCE_QUIESCED with nothing in flight, and INST_RESET and INST_REMOVE end it in DISABLED, INFLIGHT while work is in
flight; an FLR of a virtual function quiesces a running instance and tells of it, and touches no other. R310, R311, R313,
R320: APT_MAP sets a permitted entry; reads and writes of an aperture reach its memory, poison included, and mark the
dirty log; through an entry that is not valid a read is unsupported and a write is dropped and counted. -/
def Obligations.InstancesAndApertures : Prop :=
  ∀ (s : State) (m : Mbx) (pairs entry fn off b : Nat) (recs : List Nat) (cancel ep : Bool) (w2 val : Word), fn < 16 →
    let st := instState s m.inst
    let base := fld w2 47 0
    let e := aptOf s fn (off / 0x400000)
    let a := (e.base + off % 0x400000) / 8 * 8
    let bitOf (t : State) : Bool := (getByte t (b + (a - dramBase) / 0x10000 / 8)).getLsbD ((a - dramBase) / 0x10000 % 8)
    (MailboxOpen s m →
      (pairs < 16 → st < 2 → MailboxAnswers (.instConfig m pairs recs) s m 0 [] (fun t =>
        instState t m.inst = 1 ∧ (getFn t m.inst).recAddrs = recs ∧ t.mem = s.mem)) ∧
      (pairs < 16 → 2 ≤ st → MailboxAnswers (.instConfig m pairs recs) s m 3 [] (HostSame s)) ∧
      (st = 2 → s.rime.pend = [] → s.rime.longs = [] → MailboxAnswers (.instQuiesce m cancel) s m 0 [] (fun t =>
        instState t m.inst = 3 ∧ (∀ n, n ≤ 16 → n ≠ m.inst → instState t n = instState s n) ∧ t.mem = s.mem)) ∧
      (st = 3 ∨ st = 4 → MailboxAnswers (.instQuiesce m cancel) s m 0 [] (HostSame s)) ∧
      (st < 2 → MailboxAnswers (.instQuiesce m cancel) s m 3 [] (HostSame s)) ∧
      (st < 2 ∨ st = 4 → MailboxAnswers (.instReset m) s m 0 [] (fun t => instState t m.inst = 0 ∧
        (st ≠ 0 → (getFn t m.inst).recs = [] ∧ Tab.find t.host.dirty m.inst = none ∧
          ∀ p, p < 4 → rd t (Reg.HIF_SQ_TAIL m.inst p) = 0 ∧ rd t (Reg.HIF_CQ_HEAD m.inst p) = 0))) ∧
      (st = 2 ∨ st = 3 → MailboxAnswers (.instReset m) s m 4 [] (HostSame s) ∧
        MailboxAnswers (.instRemove m) s m 4 [] (HostSame s)) ∧
      (st = 0 → MailboxAnswers (.instRemove m) s m 0 [] (HostSame s)) ∧
      (st = 1 ∨ st = 4 → MailboxAnswers (.instRemove m) s m 0 [] (fun t => instState t m.inst = 0 ∧
        ∀ k, k < 64 → (aptOf t m.inst k).valid = false)) ∧
      (entry < 64 → fld w2 63 50 = 0 → base % 0x400000 = 0 → dramBase ≤ base → base + 0x400000 ≤ 0x12000000000 →
        (bit w2 49 = true → aptPermitted s m.inst base = true) → MailboxAnswers (.aptMap m entry w2) s m 0 []
          (fun t => aptOf t m.inst entry = ⟨base, bit w2 48, bit w2 49⟩ ∧ t.mem = s.mem)) ∧
      (entry < 64 → fld w2 63 50 = 0 → base % 0x400000 = 0 → dramBase ≤ base → base + 0x400000 ≤ 0x12000000000 →
        bit w2 49 = true → aptPermitted s m.inst base = false →
          MailboxAnswers (.aptMap m entry w2) s m 5 [] (HostSame s))) ∧
    (instState s fn = 3 → drainedFn s fn = true → serving s 3 = true → Completes (.instanceQuiesced fn) s (fun t =>
      instState t fn = 4 ∧ rdb t (Reg.MBX_EVENT 16) 0 = true ∧ (16, 0) ∈ t.rime.msixPend ∧ t.mem = s.mem)) ∧
    (instState s fn ≠ 2 → instState s fn ≠ 3 → Completes (.functionLevelReset fn) s (fun t =>
      (∀ n, n ≤ 16 → rd t (Reg.INST_STATE 16 n) = rd s (Reg.INST_STATE 16 n)) ∧ (getFn t fn).bme = false ∧
      rd t (Reg.MSIX_CTL fn 0) = 1 ∧ t.host = s.host ∧ t.rime.pend = s.rime.pend ∧ t.mem = s.mem)) ∧
    (instState s fn = 2 → s.rime.pend = [] → s.rime.longs = [] → Completes (.functionLevelReset fn) s (fun t =>
      instState t fn = 3 ∧ rdb t (Reg.INST_STATE 16 fn) 4 = true ∧ rdb t (Reg.MBX_EVENT 16) 1 = true ∧
      (∀ n, n ≤ 16 → n ≠ fn → rd t (Reg.INST_STATE 16 n) = rd s (Reg.INST_STATE 16 n)) ∧ t.mem = s.mem)) ∧
    (e.valid = true → Reach s (.host fn) a 1 →
      Completes (.apertureRead fn off) s (fun t =>
        t.out.head? = some (.readData a (getWord s a).v (getWord s a).p) ∧ t.mem = s.mem) ∧
      (e.wr = true →
        (Tab.find s.host.dirty fn = none → Completes (.apertureWrite fn off val ep) s (fun t =>
          getWord t a = ⟨val, ep⟩ ∧ (∀ x, x < a ∨ a + 8 ≤ x → getByte t x = getByte s x) ∧ t.regs = s.regs)) ∧
        (Tab.find s.host.dirty fn = some b → a < b ∨ b + 0x40000 ≤ a → Completes (.apertureWrite fn off val ep) s (fun t =>
          bitOf t = true ∧ ((b + (a - dramBase) / 0x10000 / 8) / 8 ≠ a / 8 → getWord t a = ⟨val, ep⟩))))) ∧
    (e.valid = false → Completes (.apertureRead fn off) s (fun t => t = { s with out := .unsupported fn off :: s.out })) ∧
    (e.valid = false ∨ e.wr = false → Completes (.apertureWrite fn off val ep) s (fun t =>
      rdf t (Reg.INST_STATE 16 fn) 31 16 = min (rdf s (Reg.INST_STATE 16 fn) 31 16 + 1) 65535 ∧
      RegsOnly s t [Reg.INST_STATE 16 fn]))

/-- R238, R243, R297, R298, R320, R321: COUNTS_READ answers the instance's four counts and LOG_SETUP places the log ring;
LINK_RETURN goes to the fabric manager; CONDUIT_BIND writes a permitted binding's registers, a sender with a credit for
each slot, and CONDUIT_UNBIND clears them; DIRTY_START starts an instance's log at a base, DIRTY_HARVEST exchanges each word of
the bitmap with 0 and copies it out, and DIRTY_STOP stops the log, the bitmap standing. -/
def Obligations.MailboxRequests : Prop :=
  ∀ (s : State) (m : Mbx) (n base first words dest log2 : Nat) (mask w1 : Word) (fields : List Word), MailboxOpen s m →
    let f := getFn s m.inst
    let w (i : Nat) : Word := fields.getD i 0
    MailboxAnswers (.countsRead m) s m 0 [f.submitted, f.completed, f.refused, f.fellBack] (HostSame s) ∧
    (base % 4096 = 0 → 8 ≤ log2 → log2 ≤ 16 → MailboxAnswers (.logSetup m base log2 mask) s m 0 [] (fun t =>
      t.rime.logCfg = some ⟨base, log2, mask⟩ ∧ t.mem = s.mem)) ∧
    (base % 4096 ≠ 0 ∨ log2 < 8 ∨ 16 < log2 → MailboxAnswers (.logSetup m base log2 mask) s m 2 [] (HostSame s)) ∧
    (fld w1 63 8 = 0 →
      (fabricManaged s = true → MailboxAnswers (.linkReturn m w1) s m 0 [] (fun t =>
        (.fabric "LINK_RETURN" (fld w1 2 0) (fld w1 7 3)) ∈ t.out ∧ HostSame s t)) ∧
      (fabricManaged s = false → MailboxAnswers (.linkReturn m w1) s m 3 [] (HostSame s))) ∧
    (n < 64 → bindOk fields = true →
      (bindPermitted s m.inst fields = true → MailboxAnswers (.conduitBind m n fields) s m 0 [] (fun t =>
        rd t (Reg.CND_LOCAL n) = w 0 ∧ rd t (Reg.CND_REMOTE n) = w 1 ∧ rd t (Reg.CND_SLOT n) = w 2 ∧
        rd t (Reg.CND_PEER n) = w 3 ∧ rd t (Reg.CND_CTL n) = w 4 ∧
        rdb t (Reg.CND_STATUS n) 0 = bit (w 4) 0 ∧ rd t (Reg.CND_COUNT n) = rd s (Reg.CND_COUNT n) ∧
        (bit (w 4) 0 = true → bit (w 4) 1 = true → rdf t (Reg.CND_STATUS n) 17 10 = fld (w 2) 31 24) ∧ t.mem = s.mem)) ∧
      (bindPermitted s m.inst fields = false → MailboxAnswers (.conduitBind m n fields) s m 5 [] (fun t =>
        rd t (Reg.CND_CTL n) = rd s (Reg.CND_CTL n) ∧ HostSame s t))) ∧
    (n < 64 → MailboxAnswers (.conduitUnbind m n) s m 0 [] (fun t =>
      rd t (Reg.CND_CTL n) = 0 ∧ rd t (Reg.CND_PEER n) = 0 ∧ rdb t (Reg.CND_STATUS n) 0 = false ∧ t.mem = s.mem)) ∧
    (base % 4096 = 0 → dramBase ≤ base → watermark s ≤ base → base + 0x40000 ≤ 0x12000000000 →
      MailboxAnswers (.dirtyStart m base) s m 0 [] (fun t => Tab.find t.host.dirty m.inst = some base ∧
        rdb t (Reg.INST_STATE 16 m.inst) 3 = true ∧ t.mem = s.mem)) ∧
    (Tab.find s.host.dirty m.inst = some base → base % 8 = 0 → first + words ≤ 32768 → 1 ≤ words → words ≤ 4096 →
      dest + 8 * words ≤ base + 8 * first ∨ base + 8 * (first + words) ≤ dest → Reach s (.rime 3 .normal) dest words →
      Tab.find s.host.dirty 31 = none → MailboxAnswers (.dirtyHarvest m first words dest) s m 0 [] (fun t =>
        (∀ i, i < words → getWord t (dest + 8 * i) = getWord s (base + 8 * (first + i)) ∧
          getWord t (base + 8 * (first + i)) = PWord.clean 0) ∧
        ∀ x, (x < dest ∨ dest + 8 * words ≤ x) → (x < base + 8 * first ∨ base + 8 * (first + words) ≤ x) →
          getByte t x = getByte s x)) ∧
    (Tab.find s.host.dirty m.inst = none → MailboxAnswers (.dirtyHarvest m first words dest) s m 3 [] (HostSame s)) ∧
    MailboxAnswers (.dirtyStop m) s m 0 [] (fun t => Tab.find t.host.dirty m.inst = none ∧
      rdb t (Reg.INST_STATE 16 m.inst) 3 = false ∧ t.mem = s.mem)

/-! ### The management network and the worlds (12) -/

/-- The device answers with an SPDM or MCTP message of a name; beside open values drawn, nothing else happens. -/
def Says (i : Instr) (s : State) (name : String) : Prop :=
  Completes i s (fun t => t = { s with out := t.out, free := t.free } ∧ ∃ bs, t.out = .spdm name bs :: s.out)

/-- R342-R344: while the service processor runs, the endpoint answers MCTP control messages and each SPDM request of
Table 12.10, in no session or one that stands; certificate slots 1-7 are empty and an absent measurement is an error; at
most two sessions open, with mutual authentication asked for, which a FINISH under a management root completes and any
other FINISH ends; heartbeats, key updates and the end are answered in an authenticated session. -/
def Obligations.SpdmResponder : Prop :=
  ∀ (s : State) (ses slot off len idx : Nat) (req exch chain verify : List Byte) (nonce : BitVec 256) (ma : Bool) (x : SesSt),
    mgtUp s = true →
    Says (.mctpControl req) s "MCTP" ∧
    (live s 3 = true →
      (ses = 0 ∨ (getSes s ses).isSome = true →
        Says (.getVersion ses) s "VERSION" ∧ Says (.getCapabilities ses) s "CAPABILITIES" ∧
        Says (.negotiateAlgorithms ses) s "ALGORITHMS" ∧ Says (.getDigests ses) s "DIGESTS" ∧
        Says (.getCertificate ses slot off len) s (if slot = 0 then "CERTIFICATE" else "ERROR") ∧
        Says (.challenge ses nonce) s "CHALLENGE_AUTH" ∧
        ((idx = 0 ∨ idx = 255 ∨ (measurement s idx).isSome = true) →
          Says (.getMeasurements ses idx nonce) s "MEASUREMENTS") ∧
        (idx ≠ 0 → idx ≠ 255 → measurement s idx = none → Says (.getMeasurements ses idx nonce) s "ERROR")) ∧
      (ses ≠ 0 → getSes s ses = none →
        (ma = true → s.sec.ses.length < 2 → Completes (.keyExchange ses ma exch) s (fun t =>
          (∃ y, getSes t ses = some y ∧ y.auth = false) ∧ (∀ n, n ≠ ses → getSes t n = getSes s n) ∧
          (∃ bs, t.out = .spdm "KEY_EXCHANGE_RSP" bs :: s.out) ∧ t.regs = s.regs ∧ t.mem = s.mem)) ∧
        (ma = false ∨ 2 ≤ s.sec.ses.length → Says (.keyExchange ses ma exch) s "ERROR")) ∧
      (getSes s ses = some x → x.auth = false →
        ((rootFor s chain verify).isSome = true → Completes (.finish ses chain verify) s (fun t =>
          sesAuth t ses = true ∧ (∃ i, i < 2 ∧ rootFor s chain verify = some i ∧ (getSes t ses).map (·.root) = some i) ∧
          (∃ bs, t.out = .spdm "FINISH_RSP" bs :: s.out) ∧ t.regs = s.regs ∧ t.mem = s.mem)) ∧
        (rootFor s chain verify = none → Completes (.finish ses chain verify) s (fun t =>
          getSes t ses = none ∧ (∃ bs, t.out = .spdm "ERROR" bs :: s.out) ∧ t.regs = s.regs)) ∧
        (ses ≠ 0 → Says (.getEncapsulatedRequest ses) s "ENCAPSULATED_REQUEST" ∧
          Says (.deliverEncapsulatedResponse ses req) s "ENCAPSULATED_RESPONSE_ACK")) ∧
      (getSes s ses = some x → x.auth = true →
        Says (.heartbeat ses) s "HEARTBEAT_ACK" ∧
        Completes (.keyUpdate ses) s (fun t => getSes t ses = some { x with keyGen := x.keyGen + 1 } ∧
          (∃ bs, t.out = .spdm "KEY_UPDATE_ACK" bs :: s.out) ∧ t.regs = s.regs ∧ t.mem = s.mem) ∧
        Completes (.endSession ses) s (fun t => getSes t ses = none ∧
          (∃ bs, t.out = .spdm "END_SESSION_ACK" bs :: s.out) ∧ t.regs = s.regs ∧ t.mem = s.mem)))

/-- R322, R326, R329, R335, R345, R414, R416: outside an authenticated session every management command is answered
NO_SESSION and changes nothing, and BUSY while processor 3 restarts. Inside one: TENANT_ASSIGN only in UNASSIGNED; keys go
to the slot of a loaded image and its conduits count afresh; DEBUG_AUTH writes SEC_DBG; RETIRE_CLEAR removes a
retirement that has passed; ROOT_SET replaces the other root only; a watermark waits for the next start; a snapshot and
an Icecore record are read. -/
def Obligations.ManagementCommands : Prop :=
  ∀ (s : State) (ses slot die stack pch idx wm addr words age off len n : Nat) (id image : Word) (key : BitVec 256)
    (dbg : BitVec 4) (digest : BitVec 384) (x : SesSt) (r : IceRec), mgtUp s = true →
    let ans (i : Instr) (st : Nat) (P : State → Prop) : Prop :=
      Completes i s (fun t => (∃ ws, t.out = .mgmt st ws :: s.out) ∧ P t)
    let same (t : State) : Prop := t = { s with out := t.out }
    let all : List Instr := [.tenantAssign ses id, .tenantQuery ses, .keyLoad ses slot image key, .keyErase ses slot,
      .debugAuth ses dbg, .retireClear ses die stack pch, .rootSet ses idx digest, .wmSet ses wm, .frostTrigger ses,
      .frostRead ses addr words, .mgtIcecoreRead ses age off len]
    (sesAuth s ses = false → ∀ i ∈ all, ans i 1 same) ∧
    (sesAuth s ses = true → live s 3 = false → ∀ i ∈ all, ans i 4 same) ∧
    (getSes s ses = some x → x.auth = true → live s 3 = true →
      (id = 0 → ans (.tenantAssign ses id) 2 same) ∧
      (id ≠ 0 → tenantState s ≠ 0 → ans (.tenantAssign ses id) 3 same) ∧
      (id ≠ 0 → tenantState s = 0 → regionWorn s 0 = false → ans (.tenantAssign ses id) 0 (fun t => tenantState t = 1 ∧
        rd t Reg.SEC_TENANT_ID = id ∧ t.power.nvm.tenant = 1 ∧ t.power.nvm.tenantId = id ∧ t.mem = s.mem)) ∧
      Completes (.tenantQuery ses) s (fun t => t = { s with
        out := .mgmt 0 [rd s Reg.SEC_TENANT, rd s Reg.SEC_TENANT_ID] :: s.out }) ∧
      (slot < 32 → n < 64 → (image = 0 → slot = s.baseth.plan.keySlot) →
        (tenantState s = 1 → (image = 0 ∨ (imgOf s image).isSome = true) → ans (.keyLoad ses slot image key) 0 (fun t =>
          Tab.find t.baseth.keys slot = some ⟨key, image⟩ ∧ (∀ k, k ≠ slot → Tab.find t.baseth.keys k = Tab.find s.baseth.keys k) ∧
          rd t (Reg.CND_COUNT n) = (if rdf s (Reg.CND_PEER n) 28 24 = slot then 0 else rd s (Reg.CND_COUNT n)) ∧
          t.mem = s.mem)) ∧
        (tenantState s ≠ 1 ∨ (image ≠ 0 ∧ imgOf s image = none) → ans (.keyLoad ses slot image key) 3 same)) ∧
      (slot < 32 → ans (.keyErase ses slot) 0 (fun t => Tab.find t.baseth.keys slot = none ∧ t.regs = s.regs ∧ t.mem = s.mem)) ∧
      (tenantState s < 2 → ans (.debugAuth ses dbg) 0 (fun t => rd t Reg.SEC_DBG = dbg.zeroExtend 64 ∧
        SameRegs s t [Reg.SEC_DBG] ∧ t.mem = s.mem)) ∧
      (2 ≤ tenantState s → ans (.debugAuth ses dbg) 3 same) ∧
      (die < 4 → pch < 32 → stack = 2 * die ∨ stack = 2 * die + 1 → regionWorn s 1 = false →
        (s.power.nvm.pchPassed.contains (stack, pch) = true → ans (.retireClear ses die stack pch) 0 (fun t =>
          (∀ e ∈ t.power.nvm.retire, ¬ (e.stack = stack ∧ e.pch = pch)) ∧
          (∀ e ∈ s.power.nvm.retire, ¬ (e.stack = stack ∧ e.pch = pch) → e ∈ t.power.nvm.retire) ∧ t.mem = s.mem)) ∧
        (s.power.nvm.pchPassed.contains (stack, pch) = false → ans (.retireClear ses die stack pch) 3 same)) ∧
      (stack ≠ 2 * die ∧ stack ≠ 2 * die + 1 → ans (.retireClear ses die stack pch) 2 same) ∧
      (x.root = idx → idx < 2 → ans (.rootSet ses idx digest) 3 same) ∧
      (x.root ≠ idx → idx < 2 → regionWorn s 0 = false → ans (.rootSet ses idx digest) 0 (fun t =>
        t.power.nvm.roots.getD idx 0 = digest ∧
        t.power.nvm.roots.getD (1 - idx) 0 = s.power.nvm.roots.getD (1 - idx) 0 ∧ t.mem = s.mem)) ∧
      (dramBase + 0x10000000 ≤ wm → wm ≤ dramBase + 0x200000000 → wm % 0x4000000 = 0 → regionWorn s 0 = false →
        ans (.wmSet ses wm) 0 (fun t => t.power.nvm.wm = wm ∧ watermark t = watermark s ∧ t.mem = s.mem)) ∧
      (wm < dramBase + 0x10000000 ∨ dramBase + 0x200000000 < wm ∨ wm % 0x4000000 ≠ 0 → ans (.wmSet ses wm) 2 same) ∧
      (rdb s Reg.FROST_STATUS 0 = true → rdb s Reg.FROST_CTL 4 = true → ans (.frostTrigger ses) 0 (fun t =>
        Nat.testBit t.power.frostTrig 3 = true ∧ t.regs = s.regs ∧ t.mem = s.mem)) ∧
      (1 ≤ words → words ≤ 128 → addr % 4 = 0 →
        (rdb s Reg.FROST_STATUS 1 = true → Completes (.frostRead ses addr words) s (fun t => t = { s with
          out := .mgmt 0 ((List.range words).map (fun i => frostValue s (addr + 4 * i) &&& 0xFFFFFFFF)) :: s.out })) ∧
        (rdb s Reg.FROST_STATUS 1 = false → ans (.frostRead ses addr words) 3 same)) ∧
      (recOfAge s age = some r → 1 ≤ len → len ≤ 4032 → off + len ≤ 16384 → ans (.mgtIcecoreRead ses age off len) 0 same) ∧
      (recOfAge s age = none → ans (.mgtIcecoreRead ses age off len) 2 same))

/-- The monitor of processor `p` runs a service for a caller (R331). -/
def Serves (s : State) (p code : Nat) (c : SavedCtx) : Prop :=
  (getProc s p).saved = some c ∧ live s p = true ∧ inMonitor s p = true ∧ procX s p 17 = code

/-- R331-R334, R338, R339: WCALL and a secure interrupt enter the monitor, which alone returns, clearing the registers
of the normal world but for a0 and a1; the secure world claims a block and its release performs a pending cut; an
enclave is created zeroed on a free range, its pages are copied and measured, it is fixed, entered by its owner, left by
a call or an interrupt that saves its registers, and destroyed zeroed; a service that does not fit answers -1. -/
def Obligations.WorldsAndEnclaves : Prop :=
  ∀ (s : State) (p n b : Nat) (c c' : SavedCtx), p < 8 → b < 28 →
    let x := getProc s p
    let a0 := procX s p 10
    let a1 := procX s p 11
    let fails (i : Instr) : Prop := Completes i s (fun t =>
      procX t p 10 = 2 ^ 64 - 1 ∧ t.regs = s.regs ∧ t.mem = s.mem ∧ t.sec.encl = s.sec.encl)
    let entered (t : State) (ret : Word) : Prop := (getProc t p).saved = some ⟨ret, x.priv, x.world⟩ ∧
      (getProc t p).world = .secure ∧ (getProc t p).priv = 3 ∧ (getProc t p).pc = Config.monVector p ∧
      t.regs = s.regs ∧ t.mem = s.mem ∧ ∀ q, q ≠ p → getProc t q = getProc s q
    let zeroed (t : State) (lo size : Nat) : Prop :=
      (∀ a, lo ≤ a → a < lo + size → getByte t a = 0 ∧ poisonAt t a = false) ∧
      (∀ a, (a < lo ∨ lo + size ≤ a) → getByte t a = getByte s a)
    let ea := Reg.ENCL_A n
    let lo := (enclRange s n).1
    let size := (enclRange s n).2
    (live s p = true →
      Completes (.wcall p) s (fun t => entered t (x.pc + 4) ∧ ∀ i, procX t p i = procX s p i) ∧
      (x.world ≠ .secure → Completes (.secureInterrupt p) s (fun t => entered t x.pc ∧ procX t p 17 = 0xFFFF)) ∧
      (x.saved = some c → inMonitor s p = true → Completes (.wret p) s (fun t => (getProc t p).pc = c.pc ∧
        (getProc t p).priv = c.priv ∧ (getProc t p).world = c.world ∧ (getProc t p).saved = none ∧
        (∀ i, procX t p i = if c.world = .secure ∨ i = 10 ∨ i = 11 then procX s p i else 0) ∧
        (c.world ≠ .secure → (getProc t p).f = []) ∧ t.regs = s.regs ∧ t.mem = s.mem)) ∧
      (inMonitor s p = false → Completes (.wret p) s (fun t =>
        getProc t p = { x with illegal := x.illegal + 1 } ∧ t.regs = s.regs ∧ t.mem = s.mem))) ∧
    (Serves s p 0x00 c → Completes (.monVersion p) s (fun t => procX t p 10 = Config.monVersion.toNat ∧ t.regs = s.regs)) ∧
    (Serves s p 0x01 c →
      (c.world = .secure → a0 = b → Completes (.pmClaim p) s (fun t => procX t p 10 = 0 ∧ rdb t Reg.SEC_CLAIM b = true ∧
        SameRegs s t [Reg.SEC_CLAIM] ∧ t.mem = s.mem)) ∧
      (c.world ≠ .secure → Completes (.pmClaim p) s (fun t => procX t p 10 = 1 ∧ t.regs = s.regs ∧ t.mem = s.mem))) ∧
    (Serves s p 0x02 c →
      (c.world = .secure → a0 = b → 4 ≤ b ∨ s.power.changing.isSome = true → Completes (.pmRelease p) s (fun t =>
        procX t p 10 = 0 ∧ rdb t Reg.SEC_CLAIM b = false ∧ rdb t Reg.SEC_PM_PEND b = false ∧
        (rdb s Reg.SEC_PM_PEND b = true →
          (if rdb s Reg.SEC_PM_KIND b then t.power.pwrCut else t.power.clkCut).contains b = true) ∧
        (rdb s Reg.SEC_PM_PEND b = false → t.power = s.power) ∧
        SameRegs s t [Reg.SEC_CLAIM, Reg.SEC_PM_PEND] ∧ t.mem = s.mem)) ∧
      (c.world ≠ .secure → Completes (.pmRelease p) s (fun t => procX t p 10 = 1 ∧ t.regs = s.regs ∧ t.mem = s.mem))) ∧
    (Serves s p 0x10 c → fromEnclave c = none →
      (enclFits s a0 a1 = true → (List.range 8).find? (fun k => !enclValid s k) = some n →
        Completes (.enclCreate p) s (fun t => procX t p 10 = n ∧ rdb t ea 51 = true ∧ rdb t ea 52 = false ∧
          rdf t ea 50 48 = p ∧ enclRange t n = (a0, a1) ∧ zeroed t a0 a1 ∧ SameRegs s t [ea, Reg.ENCL_B n])) ∧
      (enclFits s a0 a1 = false → fails (.enclCreate p))) ∧
    (Serves s p 0x11 c → fromEnclave c = none → a0 = n → enclValid s n = true →
      let off := procX s p 12
      (enclInited s n = false → off % 4096 = 0 → off < size → a1 % 4096 = 0 → watermark s ≤ a1 → a1 + 4096 ≤ 0x12000000000 →
        Reach s (.rime p .secure) a1 512 → enclaveAt s a1 = none → Completes (.enclAdd p) s (fun t =>
          procX t p 10 = 0 ∧ (∀ i, i < 512 → getWord t (lo + off + 8 * i) = getWord s (a1 + 8 * i)) ∧
          (∀ a, (a < lo + off ∨ lo + off + 4096 ≤ a) → getByte t a = getByte s a) ∧
          (getEncl t n).meas = Config.sha384 (bytesLE 48 (getEncl s n).meas.toNat ++ bytesLE 8 off ++ getBytes s a1 4096))) ∧
      (enclInited s n = true → fails (.enclAdd p))) ∧
    (Serves s p 0x12 c → fromEnclave c = none → a0 = n → enclValid s n = true →
      (enclInited s n = false → a1 < size → Completes (.enclInit p) s (fun t => procX t p 10 = 0 ∧ rdb t ea 52 = true ∧
        (getEncl t n).entry = a1 ∧ (getEncl t n).meas = (getEncl s n).meas ∧ SameRegs s t [ea] ∧ t.mem = s.mem)) ∧
      (enclInited s n = true ∨ size ≤ a1 → fails (.enclInit p))) ∧
    (Serves s p 0x13 c → fromEnclave c = none → a0 = n → enclValid s n = true →
      (enclInited s n = true → enclRuns s n = false → rdf s ea 50 48 = p → Completes (.enclEnter p) s (fun t =>
        rdb t ea 53 = true ∧ (getProc t p).world = .enclave n ∧ (getProc t p).priv = 0 ∧
        ((getEncl s n).saved = none → (getProc t p).pc = BitVec.ofNat 64 (lo + (getEncl s n).entry)) ∧
        (∀ rs, (getEncl s n).saved = some rs → (getProc t p).pc = Tab.get 0 rs 64 ∧
          ∀ i, i < 32 → procX t p i = (Tab.get 0 rs i).toNat) ∧ SameRegs s t [ea] ∧ t.mem = s.mem)) ∧
      (enclInited s n = false ∨ enclRuns s n = true ∨ rdf s ea 50 48 ≠ p → fails (.enclEnter p))) ∧
    (Serves s p 0x14 c →
      (fromEnclave c = some n → Completes (.enclExit p) s (fun t => procX t p 10 = 0 ∧ rdb t ea 53 = false ∧
        (getProc t p).saved = (getEncl s n).caller ∧ SameRegs s t [ea] ∧ t.mem = s.mem)) ∧
      (fromEnclave c = none → fails (.enclExit p))) ∧
    (x.world = .enclave n → (getEncl s n).caller = some c' → live s p = true → Completes (.enclInterruptExit p) s (fun t =>
      procX t p 10 = 1 ∧ (∀ i, i ≠ 10 → procX t p i = 0) ∧ (getProc t p).pc = c'.pc ∧ (getProc t p).world = c'.world ∧
      (getProc t p).priv = c'.priv ∧ rdb t ea 53 = false ∧
      (∃ rs, (getEncl t n).saved = some rs ∧ ∀ i, i < 32 → Tab.get 0 rs i = Tab.get 0 x.x i) ∧
      SameRegs s t [ea] ∧ t.mem = s.mem)) ∧
    (Serves s p 0x15 c → fromEnclave c = none → a0 = n → enclValid s n = true →
      (enclRuns s n = false → Completes (.enclDestroy p) s (fun t => procX t p 10 = 0 ∧ rd t ea = 0 ∧
        rd t (Reg.ENCL_B n) = 0 ∧ zeroed t lo size ∧ SameRegs s t [ea, Reg.ENCL_B n])) ∧
      (enclRuns s n = true → fails (.enclDestroy p)))

/-! ### Snowline, compare, capture and kernel queues (13) -/

/-- No compare unit is armed and no kernel queue holds an entry: a step of Snowline fires nothing. -/
def NothingTimed (s : State) : Prop :=
  (∀ u, u < 16 → rdb s (Reg.CMP_STATUS u) 0 = false) ∧ ∀ q, q < 4 → Tab.get [] s.snow.ttq q = []

/-- HOLDOVER changes: its flag is set and Serac is told, and nothing else happens (R352). -/
def HoldoverChange (i : Instr) (s : State) (on : Bool) : Prop :=
  (holdover s = on → Completes i s (fun t => t = s)) ∧
  (holdover s = !on → Completes i s (fun t => holdover t = on ∧ rdb t Reg.SNOW_STATUS 3 = true ∧
    t = { s with regs := t.regs, out := .notice "Serac" "HOLDOVER" (b2n on) :: s.out } ∧
    SameRegs s t [Reg.SNOW_STATUS, Reg.SNOW_EVCNT]))

/-- R348-R352: an increment within ±500 ppm is taken and another sets ADJ_REFUSED; a slew replaces what remained; a step
is applied while STEP_EN is 1 or SYNCED is 0 and sets STEPPED, else ADJ_REFUSED; all three are ignored in holdover,
which a lost master or a new grandmaster brings and RELOCK ends; the first lock steps and sets SYNCED; a read of SNOW_NS
latches the fraction, and a read of its low half the high half. R357: a capture holds the time of its edge, eight
of them, and a read of CAP_INFO pops the oldest. -/
def Obligations.Snowline : Prop :=
  ∀ (s : State) (who : Requester) (val : Word) (off : Int) (why : PtpLoss) (b rising : Bool) (c : Nat) (e : CapEnt)
    (es : List CapEnt), c < 8 →
    let may (o : Nat) : Prop := mayWrite s who .snow 0 o = true ∧ holdover s = false
    let refused (i : Instr) : Prop := Completes i s (fun t => rdb t Reg.SNOW_STATUS 4 = true ∧
      RegsOnly s t [Reg.SNOW_STATUS, Reg.SNOW_EVCNT])
    let stepped (t : State) (d : Word) : Prop := now t = now s + d ∧ rdb t Reg.SNOW_STATUS 2 = true ∧
      t.out = .notice "Serac" "STEPPED" 0 :: s.out ∧ t.snow.sub = s.snow.sub ∧
      SameRegs s t [Reg.SNOW_NS, Reg.SNOW_STATUS, Reg.SNOW_EVCNT] ∧ t.mem = s.mem
    let picks : Bool := rdf s (Reg.CAP_CFG c) 1 0 == 3 || rdf s (Reg.CAP_CFG c) 1 0 == (if rising then 1 else 2)
    let fifo := Tab.get [] s.snow.caps c
    (may 0x28 →
      (0x03FF7CED9169 ≤ val.toNat → val.toNat ≤ 0x040083126E97 → Completes (.snowIncrWrite who val) s (fun t =>
        rd t Reg.SNOW_INCR = val ∧ RegsOnly s t [Reg.SNOW_INCR])) ∧
      (val.toNat < 0x03FF7CED9169 ∨ 0x040083126E97 < val.toNat → refused (.snowIncrWrite who val))) ∧
    (¬ may 0x28 → Completes (.snowIncrWrite who val) s (fun t => t = s)) ∧
    (may 0x38 → Completes (.snowSlewWrite who val) s (fun t => rdn t Reg.SNOW_SLEW = val.toNat % 2 ^ 32 ∧
      SameRegs s t [Reg.SNOW_SLEW] ∧ t.mem = s.mem)) ∧
    (¬ may 0x38 → Completes (.snowSlewWrite who val) s (fun t => t = s)) ∧
    (may 0x30 →
      (rdb s Reg.SNOW_CTL 0 = true ∨ rdb s Reg.SNOW_STATUS 0 = false → NothingTimed s →
        Completes (.snowStepWrite who val) s (fun t => stepped t val)) ∧
      (rdb s Reg.SNOW_CTL 0 = false → rdb s Reg.SNOW_STATUS 0 = true → refused (.snowStepWrite who val))) ∧
    (¬ may 0x30 → Completes (.snowStepWrite who val) s (fun t => t = s)) ∧
    (mayWrite s who .snow 0 0 = true → HoldoverChange (.relock who) s false) ∧
    HoldoverChange (.ptpSyncTimeout why) s true ∧
    HoldoverChange (.ptpMessage .newGrandmaster) s true ∧
    (live s 1 = true → HoldoverChange (.ptpMessage .relockMeasured) s false) ∧
    Completes (.ptpMessage (.sync b)) s (fun t => t = s) ∧
    (live s 1 = true → rdb s Reg.SNOW_STATUS 0 = false → holdover s = false → NothingTimed s →
      Completes (.ptpMessage (.lock off)) s (fun t => stepped t (BitVec.ofInt 64 off) ∧ rdb t Reg.SNOW_STATUS 0 = true)) ∧
    (who ≠ .debug →
      Completes (.snowNsRead who false) s (fun t => t.out = .readData Reg.SNOW_NS (now s) false :: s.out ∧
        rdn t Reg.SNOW_FRAC = s.snow.sub.toNat / 2 ^ 24 ∧ SameRegs s t [Reg.SNOW_FRAC] ∧ t.mem = s.mem) ∧
      Completes (.snowNsRead who true) s (fun t => t.out = .readData Reg.SNOW_NS (now s &&& 0xFFFFFFFF) false :: s.out ∧
        rdn t Reg.SNOW_FRAC = s.snow.sub.toNat / 2 ^ 24 ∧ Tab.find t.latch Reg.SNOW_NS = some (now s >>> 32) ∧
        SameRegs s t [Reg.SNOW_FRAC] ∧ t.mem = s.mem)) ∧
    (picks = false → Completes (.captureEdge c rising) s (fun t => t = s)) ∧
    (picks = true → Tab.find s.lines (28 + c) = none →
      (fifo.length < 8 → Completes (.captureEdge c rising) s (fun t =>
        Tab.get [] t.snow.caps c = fifo ++ [⟨now s, s.snow.sub.toNat / 2 ^ 24, rising⟩] ∧ t.regs = s.regs ∧ t.mem = s.mem)) ∧
      (8 ≤ fifo.length → rdn s (Reg.CAP_OVF c) < 2 ^ 32 - 1 → Completes (.captureEdge c rising) s (fun t =>
        rdn t (Reg.CAP_OVF c) = rdn s (Reg.CAP_OVF c) + 1 ∧ RegsOnly s t [Reg.CAP_OVF c]))) ∧
    (who ≠ .debug → visible s who (Reg.CAP_INFO c) = true → fifo = e :: es → Completes (.capInfoRead who c) s (fun t =>
      t.out = .readData (Reg.CAP_INFO c) (BitVec.ofNat 64 (e.frac + b2n e.rising * 65536 + 2 ^ 31)) false :: s.out ∧
      Tab.get [] t.snow.caps c = es ∧ SameRegs s t [Reg.CAP_INFO c] ∧ t.mem = s.mem))

/-- R353, R354, R356: an armed unit fires once its target is reached, late if it already was when armed; a one-shot one
disarms and a periodic one adds its period. R359, R360: a push enters a queue of sixteen; a due entry of a queue
starts every named core, or none with MISS where one runs or is out of service; a timed job's first kernel is
prepared and pushed with the low word of its START_TIME. -/
def Obligations.TimedEvents : Prop :=
  ∀ (s : State) (who : Requester) (u q job : Nat) (e : TtqEnt) (j : Job) (i : Image), u < 16 → q < 4 →
    let st := Reg.CMP_STATUS u
    let target := rdf s (Reg.CMP_TARGET u) 31 0
    let period := rdf s (Reg.CMP_TARGET u) 63 32
    let dueNow := reached (now32 s) target
    let queue := Tab.get [] s.snow.ttq q
    let may := mayWrite s who .snow 0 (0x628 + q * 0x40)
    (cmpWriter s who u = true →
      Completes (.cmpArm who u) s (fun t => rdb t st 0 = true ∧ t.snow.late.contains u = dueNow ∧ SameRegs s t [st] ∧
        t.mem = s.mem) ∧
      Completes (.cmpDisarm who u) s (fun t => rdb t st 0 = false ∧ SameRegs s t [st] ∧ t.mem = s.mem)) ∧
    (u < 12 →
      (unitDue s u = false → Completes (.compareFire u) s (fun t => t = s)) ∧
      (unitDue s u = true → Tab.find s.lines (16 + u) = none →
        let fired (t : State) : Prop := rdb t st 1 = true ∧ (s.snow.late.contains u = true → rdb t st 2 = true) ∧
          rdn t (Reg.CMP_LAST u) = now32 s ∧ t.mem = s.mem
        (rdb s (Reg.CMP_CTL u) 2 = false → Completes (.compareFire u) s (fun t => fired t ∧ rdb t st 0 = false ∧
          SameRegs s t [st, Reg.CMP_LAST u, Reg.SNOW_EVCNT])) ∧
        (rdb s (Reg.CMP_CTL u) 2 = true → ctrDiff (now32 s) target < period → Completes (.compareFire u) s (fun t =>
          fired t ∧ rdb t st 0 = true ∧ rdf t (Reg.CMP_TARGET u) 31 0 = (target + period) % 2 ^ 32 ∧
          SameRegs s t [st, Reg.CMP_LAST u, Reg.CMP_TARGET u, Reg.SNOW_EVCNT])))) ∧
    (u = 12 + q → unitDue s u = false → queue = [e] → reached (now32 s) e.target.toNat = true → s.rime.jobs = [] →
      ((∀ n, e.mask.getLsbD n = true → running s n = false ∧ (getCore s n).inService = true) →
        Completes (.compareFire u) s (fun t => Tab.get [] t.snow.ttq q = [] ∧
          (∀ n, e.mask.getLsbD n = true → running t n = true) ∧ (e.late = true → rdb t (Reg.TTQ_STATUS q) 9 = true) ∧
          t.mem = s.mem)) ∧
      ((∃ n, e.mask.getLsbD n = true ∧ (running s n = true ∨ (getCore s n).inService = false)) →
        Completes (.compareFire u) s (fun t => Tab.get [] t.snow.ttq q = [] ∧ rdb t (Reg.TTQ_STATUS q) 8 = true ∧
          t.out = .notice "processor 0" "MISS" q :: s.out ∧ t.cores = s.cores ∧
          SameRegs s t [Reg.TTQ_STATUS q, Reg.SNOW_EVCNT]))) ∧
    (may = true →
      (queue.length < 16 → Completes (.ttqPush who q) s (fun t => t.regs = s.regs ∧ t.mem = s.mem ∧
        ∃ x, Tab.get [] t.snow.ttq q = queue ++ [x] ∧ x.target.toNat = rdf s (Reg.TTQ_TARGET q) 31 0 ∧
          (∀ n, n < 32 → x.mask.getLsbD n = rdb s (Reg.TTQ_MASK0 q) n))) ∧
      (16 ≤ queue.length → Completes (.ttqPush who q) s (fun t => rdb t (Reg.TTQ_STATUS q) 10 = true ∧
        RegsOnly s t [Reg.TTQ_STATUS q, Reg.SNOW_EVCNT]))) ∧
    (may = false → Completes (.ttqPush who q) s (fun t => t = s)) ∧
    (jobOf s job = some j → jobImg s j = some i → mayPrepare s j i = true → j.ent.prio = q → (i.kernels[0]?).isSome = true →
      queue.length < 16 → Completes (.timedJobPrepare job) s (fun t =>
        (∃ j', jobOf t job = some j' ∧ j'.phase = .prepared) ∧
        ∃ x, Tab.get [] t.snow.ttq q = queue ++ [x] ∧ x.target.toNat = (j.timed.getD 0).toNat % 2 ^ 32)) ∧
    (jobOf s job = some j → jobImg s j = some i → mayPrepare s j i = false →
      Completes (.timedJobPrepare job) s (fun t => t = s))

/-! ### The stream front end and the gateway (13) -/

/-- R361, R364, R365: packets with a bad header or of another data type are counted; a frame start takes the next buffer, or
drops the frame while FULL stands there; a good line joins the frame, one that fails its CRC is counted and raises DE
0x95, and one too many sets LONG; at its end the record's word 0 is written with FULL, and the next buffer is next. -/
def Obligations.Streams : Prop :=
  ∀ (s : State) (k dt lanes : Nat) (px : List Nat) (c : StreamCfg) (i : Image) (crc : Bool), k < 128 → lanes < 8 →
    let r := getStream s k
    let st := Reg.STR_STATUS k
    let err := Reg.RX_HDR_ERR (k / 8)
    let a := c.ring + r.buf * c.pitch
    let full := (getWord s a).v.getLsbD 0
    let n := if c.dt = 0x1E then 2 * c.inW else c.inW
    Completes (.deskewCalibration (k / 8) lanes) s (fun t => rdf t (Reg.RX_STATUS (k / 8)) 2 0 = lanes ∧
      rdb t (Reg.RX_STATUS (k / 8)) 3 = true ∧ RegsOnly s t [Reg.RX_STATUS (k / 8)]) ∧
    (rdb s Reg.STR_CTL (k / 8) = true →
      Completes (.csi2Line k dt px crc false) s (fun t =>
        rdf t err 15 0 = min (rdf s err 15 0 + 1) 65535 ∧ rdf t err 31 16 = rdf s err 31 16 ∧ RegsOnly s t [err]) ∧
      (Tab.find s.streams.cfg k = some c → dt ≠ c.dt → Completes (.csi2Line k dt px crc true) s (fun t =>
        rdf t err 31 16 = min (rdf s err 31 16 + 1) 65535 ∧ rdf t err 15 0 = rdf s err 15 0 ∧ RegsOnly s t [err])) ∧
      (Tab.find s.streams.cfg k = some c → dt = c.dt → dtKnown dt = true → r.open_ = true → r.drop = false →
        (r.lines.length < c.inH → n ≤ px.length →
          (crc = true → Completes (.csi2Line k dt px crc true) s (fun t =>
            (getStream t k).lines = r.lines ++ [(px.take n, true)] ∧ t.regs = s.regs ∧ t.mem = s.mem)) ∧
          (crc = false → Completes (.csi2Line k dt px crc true) s (fun t =>
            (getStream t k).lines = r.lines ++ [(px.take n, false)] ∧ (getStream t k).crcErrs = r.crcErrs + 1 ∧
            rdb t st 2 = true ∧ rdn t (Reg.STR_CRC k) = min (rdn s (Reg.STR_CRC k) + 1) (2 ^ 32 - 1) ∧
            rdb t (Reg.ERR_STATUS .package 0) 1 = true ∧ rdf t (Reg.ERR_STATUS .package 0) 23 16 = 0x95 ∧
            t.mem = s.mem))) ∧
        (c.inH ≤ r.lines.length → Completes (.csi2Line k dt px crc true) s (fun t =>
          (getStream t k).lines = r.lines ∧ rdb t st 4 = true ∧ t.mem = s.mem ∧ SameRegs s t [st, Reg.STR_EVCNT])))) ∧
    (Tab.find s.streams.cfg k = some c → streamOwner s k c = some i → Reach s .stream a 1 →
      (r.open_ = false →
        (full = false → Completes (.csi2FrameStart k) s (fun t => (getStream t k).open_ = true ∧ (getStream t k).drop = false ∧
          (getStream t k).buf = r.buf ∧ rdb t st 0 = true ∧
          rdn t (Reg.STR_FRAMES k) = (rdn s (Reg.STR_FRAMES k) + 1) % 2 ^ 32 ∧ t.mem = s.mem)) ∧
        (full = true → Completes (.csi2FrameStart k) s (fun t => (getStream t k).drop = true ∧ (getStream t k).buf = r.buf ∧
          rdb t st 1 = true ∧ rdn t (Reg.STR_DROPPED k) = min (rdn s (Reg.STR_DROPPED k) + 1) (2 ^ 32 - 1) ∧
          t.mem = s.mem))) ∧
      (r.open_ = true → r.drop = true → Completes (.csi2FrameEnd k) s (fun t => (getStream t k).open_ = false ∧
        (getStream t k).buf = r.buf ∧ t.regs = s.regs ∧ t.mem = s.mem)) ∧
      (r.open_ = true → r.drop = false → r.lines.length = c.inH → 1 ≤ c.count → Tab.find s.lines (k / 8) = none →
        Tab.find s.host.dirty i.owner = none → r.frame < 2 ^ 32 → Completes (.csi2FrameEnd k) s (fun t =>
          (getStream t k).open_ = false ∧ (getStream t k).buf = (r.buf + 1) % c.count ∧
          getWord t a = ⟨BitVec.ofNat 64 (1 + b2n (r.crcErrs ≠ 0) * 2 + b2n r.extra * 8 + r.frame * 2 ^ 32), false⟩)))

/-- R368-R371, R28: a frame to a learned address leaves by that port and its source is learned, until it ages out; a frame
of the management port goes to receive queue 7, or is dropped while its buffer is owned; a transmit queue takes the frame
whose OWN is set and the header goes back with OWN clear; a frame that carries poison is dropped with UC 0x90; a
transmit stamp is read once; gates move on at their instants; CAN messages that pass a filter are received, and owned
ones are sent at their launch time, unless the bus is off. -/
def Obligations.Gateway : Prop :=
  ∀ (s : State) (who : Requester) (port p q n id : Nat) (f : EthFrame) (r : RingSt) (lab : Label) (ts : TsEnt)
    (tl : List TsEnt) (g : GateList) (m : CanMsg), port < 13 → p < 12 → q < 8 → n < 8 → f.bytes.length ≤ 9216 →
    let own (b : Nat) : Bool := (getWord s b).v.getLsbD 0
    let given (t : State) (b len prt : Nat) : Prop := (getWord t b) = ⟨BitVec.ofNat 64 (1 + len * 2 ^ 32 + prt * 2 ^ 48), false⟩
    let b := ringBuf r
    let next (x : RingSt) : Nat := if x.count = 0 then 0 else (x.next + 1) % x.count
    let egress (x : State) (k : Nat) : List EthFrame := Tab.get [] x.gateway.egress k
    let ring : Prop := ringLabel s r = some lab ∧ Reach s .stream b 5 ∧ Tab.find s.host.dirty lab.inst = none
    let c := getCan s n
    (port < 12 → f.ptp = false → (vlanPorts s f.vlan).contains port = true → (vlanPorts s f.vlan).filter (· == p) = [p] →
      p ≠ port → filterPass s f = true → Tab.find s.gateway.frer f.streamId = none → isGroup f.dst = false →
      isGroup f.src = false → f.src ≠ f.dst → s.gateway.fdb.length < 8192 →
      s.gateway.fdb.find? (fun e => e.mac == f.dst && e.vlan == f.vlan) = some ⟨f.dst, f.vlan, p⟩ →
      Completes (.ethFrameReceive port f) s (fun t =>
        (∀ k, egress t k = if k = p then egress s p ++ [f] else egress s k) ∧
        ⟨f.src, f.vlan, port⟩ ∈ t.gateway.fdb ∧ t.regs = s.regs ∧ t.mem = s.mem)) ∧
    (Tab.find s.gateway.rx 7 = some r → ring → Tab.find s.lines 59 = none →
      (own b = false → Completes (.ethFrameReceive 12 f) s (fun t => given t b f.bytes.length 12 ∧
        (Tab.find t.gateway.rx 7).map (·.next) = some (next r))) ∧
      (own b = true → Completes (.ethFrameReceive 12 f) s (fun t =>
        Tab.get 0 t.gateway.rxDropped 7 = Tab.get 0 s.gateway.rxDropped 7 + 1 ∧ t.regs = s.regs ∧ t.mem = s.mem))) ∧
    (Tab.find s.gateway.tx q = some r → Tab.find s.gateway.sending q = none → ring →
      (own b = true → Completes (.txQueuePoll q) s (fun t => ∃ x, Tab.find t.gateway.sending q = some (x, b))) ∧
      (own b = false → Completes (.txQueuePoll q) s (fun t => t = s))) ∧
    (nextFrame s port = some f →
      (f.poison = false → f.ptp = false → Completes (.ethFrameSent port id none) s (fun t =>
        t.out = .frame port f :: s.out ∧ egress t port = dropOne f (egress s port) ∧ t.regs = s.regs ∧ t.mem = s.mem)) ∧
      (f.poison = true → f.ptp = false → Completes (.ethFrameSent port id none) s (fun t =>
        rdb t (Reg.ERR_STATUS .package 0) 2 = true ∧ rdf t (Reg.ERR_STATUS .package 0) 23 16 = 0x90 ∧
        (∀ x, Out.frame port x ∈ t.out → Out.frame port x ∈ s.out) ∧ t.mem = s.mem)) ∧
      (f.poison = false → f.ptp = true → (Tab.get [] s.gateway.tsq port).length < 16 →
        Completes (.ethFrameSent port id none) s (fun t => Tab.get [] t.gateway.tsq port =
          Tab.get [] s.gateway.tsq port ++ [⟨now s, s.snow.sub.toNat / 2 ^ 24, id⟩]))) ∧
    (Tab.find s.gateway.sending q = some (f, b) → Tab.find s.gateway.tx q = some r → ring → f.poison = false →
      Completes (.ethFrameSent port id (some q)) s (fun t => Tab.find t.gateway.sending q = none ∧
        (Tab.find t.gateway.tx q).map (·.next) = some (next r) ∧ (getWord t b).v.getLsbD 0 = false ∧
        .frame port f ∈ t.out)) ∧
    (rimeOf who = some 1 → Tab.get [] s.gateway.tsq port = ts :: tl →
      Completes (.tsqInfoRead who port) s (fun t => t.out = .readData (Reg.TSQ_INFO port)
        (BitVec.ofNat 64 (ts.frac + ts.frameId * 65536 + 2 ^ 32)) false :: s.out ∧ Tab.get [] t.gateway.tsq port = tl ∧
        t.mem = s.mem)) ∧
    (who ≠ .debug → rimeOf who ≠ some 1 → Completes (.tsqInfoRead who port) s (fun t => t = s)) ∧
    (Tab.find s.gateway.gates port = some g → g.entries ≠ [] → reached (now32 s) (g.at_.toNat % 2 ^ 32) = true →
      Completes (.gateChange port) s (fun t => (Tab.find t.gateway.gates port).map (·.cur) =
        some ((g.cur + 1) % g.entries.length) ∧ t.regs = s.regs ∧ t.mem = s.mem)) ∧
    (Tab.find s.gateway.gates port = some g → reached (now32 s) (g.at_.toNat % 2 ^ 32) = false →
      Completes (.gateChange port) s (fun t => t = s)) ∧
    Completes (.addressAgeing f.src f.vlan) s (fun t =>
      t = { s with gateway := { s.gateway with fdb := s.gateway.fdb.filter (fun e => !(e.mac == f.src && e.vlan == f.vlan)) } }) ∧
    (c.busOff = false →
      (c.rx = some r → ring → canAccept c m = true → own b = false → Tab.find s.lines (36 + n) = none →
        Completes (.canFrameReceive n m) s (fun t => given t b m.bytes.length n ∧
          (getCan t n).rx.map (·.next) = some (next r))) ∧
      (c.rx = some r → ring → canAccept c m = false → Completes (.canFrameReceive n m) s (fun t => t = s)) ∧
      (c.tx = some r → c.sending = none → ring → own b = true →
        let timed := (getWord s (b + 8)).v.getLsbD 16
        let at_ := fld (getWord s (b + 16)).v 31 0
        (timed = false ∨ reached (now32 s) at_ = true → Completes (.canLaunch n) s (fun t =>
          ∃ x, (getCan t n).sending = some (x, b))) ∧
        (timed = true → reached (now32 s) at_ = false → Completes (.canLaunch n) s (fun t =>
          (getCan t n).sending = none ∧ t.out = s.out ∧ t.mem = s.mem)))) ∧
    (c.sending = some (m, b) → c.tx = some r → ring → Tab.find s.lines (44 + n) = none →
      Completes (.canTransmitDone n) s (fun t => (getCan t n).sending = none ∧
        (getCan t n).tx.map (·.next) = some (next r) ∧ (getWord t b).v.getLsbD 0 = false)) ∧
    (c.busOff = true → Completes (.canBusOffRecovery n) s (fun t => (getCan t n).busOff = c.holdOff ∧
      t.regs = s.regs ∧ t.mem = s.mem))

/-! ### Cornice (14) -/

/-- Cornice may read `n` bytes at `a`: a window of the plan holds them, they are present and none is poisoned. -/
def CorReads (s : State) (d : DispPlan) (a n : Nat) : Prop :=
  inWin d false a n = true ∧ Reach s .cornice a (ceilDiv n 8) ∧ anyPoison s a n = false

/-- The address of the slot at the tail of an event ring. -/
def eventSlot (s : State) (d : DispPlan) (map : Bool) : Nat :=
  (evtRing d map).1.1 + 64 + getNum s (evtRing d map).1.1 4 % 2 ^ (evtRing d map).1.2 * 32

/-- No event waits, and the event ring of a kind of work lies in a writable window and has a free slot (R376). -/
def EventFree (s : State) (d : DispPlan) (map : Bool) : Prop :=
  let base := (evtRing d map).1.1
  s.cornice.plan = some d ∧ s.cornice.waiting = [] ∧
  ctrDiff (getNum s base 4) (getNum s (base + 8) 4) < 2 ^ (evtRing d map).1.2 ∧
  inWin d true base 16 = true ∧ inWin d true (eventSlot s d map) 32 = true ∧ Reach s .cornice base 2 ∧
  Reach s .cornice (eventSlot s d map) 4 ∧ Tab.find s.host.dirty (corLabel d map).inst = none

/-- An event stands in the slot that was free, with its phase, tag and data, and TAIL has moved on (Table 14.4). -/
def EventPosted (s t : State) (d : DispPlan) (map : Bool) (w0 : Nat) (tag : Word) (data : Nat) : Prop :=
  let tail := getNum s (evtRing d map).1.1 4
  let a := eventSlot s d map
  (getWord t a).v = BitVec.ofNat 64 (w0 + (1 - tail / 2 ^ (evtRing d map).1.2 % 2) * 65536) ∧ (getWord t (a + 8)).v = tag ∧
  (getWord t (a + 16)).v = now s ∧ (getWord t (a + 24)).v = BitVec.ofNat 64 data ∧
  getNum t (evtRing d map).1.1 4 = (tail + 1) % 2 ^ 32 ∧ t.cornice.waiting = []

/-- R376, R378, R379, R383, R384, R393: an idle Cornice copies the entry at HEAD of an owner's ring whole and moves on,
and a descriptor that breaks Table 14.3 ends at once with BAD_DESC; a tile goes to the first free core; a primitive without
room writes BIN_GROW and waits for a chunk, and NONE or the wait's end starts the fall-back at it; the budget's end
stops every program with OVERRUN; a pass or a job that has ended posts its event, or waits for a slot. -/
def Obligations.PassesAndJobs : Prop :=
  ∀ (s : State) (d : DispPlan) (p : PassSt) (x : Prim) (n g t0 : Nat) (m : MapSt) (e : EvtRec) (map : Bool),
    s.cornice.plan = some d →
    let ring (r : Nat × Nat) (words : Nat) (owner : Nat) (entry : List Word) : Prop :=
      let h := getNum s (r.1 + 8) 4
      let a := r.1 + 64 + h % 2 ^ r.2 * (8 * words)
      rdb s Reg.CORNICE_CTL 0 = true ∧ instState s owner = 2 ∧ getNum s r.1 4 ≠ h ∧ CorReads s d r.1 16 ∧
      inWin d true (r.1 + 8) 4 = true ∧ CorReads s d a (8 * words) ∧ entry = (getWords s a words).map (·.v)
    let headMoved (t : State) (r : Nat × Nat) : Prop := getNum t (r.1 + 8) 4 = (getNum s (r.1 + 8) 4 + 1) % 2 ^ 32
    let fell (t : State) : Prop := rdb t Reg.CORNICE_STATUS 3 = true ∧
      ∃ q, t.cornice.pass = some q ∧ q.firstImm = some x.seq ∧ q.growPrim = none ∧ q.grewAt = none
    let waits : Prop := s.cornice.pass = some p ∧ p.phase = .growWait ∧ p.growPrim = some x ∧ p.grewAt = some t0 ∧
      CorReads s d p.growAddr 8 ∧ g = getNum s p.growAddr 8
    (rdb s Reg.CORNICE_CTL 0 = false ∨ s.cornice.pass.isSome = true ∨ instState s d.owner ≠ 2 →
      Completes .passRingPoll s (fun t => t = s)) ∧
    (∀ entry, ring d.passRing 16 d.owner entry → s.cornice.pass = none → Tab.find s.host.dirty d.owner = none →
      Completes .passRingPoll s (fun t => headMoved t d.passRing ∧ ∃ q, t.cornice.pass = some q ∧ q.desc = entry ∧
        q.start = nowN s ∧
        (descOk d { desc := entry, phase := .binning, start := nowN s } = false → q.phase = .ending ∧ q.status = 3))) ∧
    (∀ entry, ring d.mapRing 8 d.mapOwner entry → s.cornice.map = none → Tab.find s.host.dirty d.mapOwner = none →
      Completes .mapRingPoll s (fun t => headMoved t d.mapRing ∧ t.cornice.map = some { desc := entry } ∧
        rdb t Reg.CORNICE_STATUS 0 = true)) ∧
    (s.cornice.pass = some p → p.phase = .tiles → p.tile < p.tileCount → renderCores.find? (fun k => !running s k) = some n →
      fld (p.w 0) 11 8 = 0 → p.targets ≤ 4 → Completes .tileDispatch s (fun t => running t n = true ∧ (getRc t n).tile = some p.tile ∧
        (getRc t n).frag = true ∧ getPc t n = p.vprog.2 ∧
        (∀ c ∈ tilePixels p p.tile, ∀ k, k < p.targets →
          Tab.get (0, true) (getRc t n).pix (k * 1024 + c.1) = (BitVec.ofNat 32 p.clear, false)) ∧
        t.cornice.pass = some { p with tile := p.tile + 1 } ∧ t.mem = s.mem)) ∧
    (s.cornice.pass = some p → p.phase = .binning → p.growPrim = some x → EventFree s d false →
      p.chunks.length < 2 ^ 32 → x.seq < 2 ^ 32 → Completes .binGrow s (fun t =>
        EventPosted s t d false 2 (p.w 15) (p.chunks.length + x.seq * 2 ^ 32) ∧
        t.cornice.pass = some { p with phase := .growWait, grewAt := some (nowN s) })) ∧
    (waits →
      (nowN s ≤ t0 + p.growWait * 1000 →
        (g = 0 → Completes .growPoll s (fun t => t.cornice = s.cornice ∧ t.mem = s.mem)) ∧
        (g < 2 ^ 48 → g ≠ 0 → g % 0x10000 = 0 → inWin d true g 0x10000 = true → inWin d true p.growAddr 8 = true →
          rdn s Reg.CORNICE_GROWS < 2 ^ 32 - 1 → Completes .growPoll s (fun t =>
            rdn t Reg.CORNICE_GROWS = rdn s Reg.CORNICE_GROWS + 1 ∧
            ∃ q, t.cornice.pass = some q ∧ q.chunks = p.chunks ++ [g] ∧ q.grewAt = none ∧ q.firstImm = p.firstImm)) ∧
        (2 ^ 63 ≤ g → Completes .growPoll s fell)) ∧
      (t0 + p.growWait * 1000 ≤ nowN s → g = 0 ∨ 2 ^ 63 ≤ g → Completes .growWaitExpiry s fell)) ∧
    (s.cornice.pass = some p → p.budget ≠ 0 → p.start + p.budget * 1000 ≤ nowN s → p.phase ≠ .ending →
      Completes .passBudgetExpiry s (fun t => t.cornice.pass = some { p with phase := .ending, status := 4 } ∧
        (∀ k, k < 8 → running t (128 + k) = false) ∧ t.mem = s.mem)) ∧
    (s.cornice.pass = some p → p.phase = .ending → p.told = false → EventFree s d false → p.skipped < 2 ^ 32 →
      p.status < 5 → (p.status = 0 → fld (p.w 0) 15 12 = 0) → (∀ k, p.firstImm = some k → k < 2 ^ 32) →
      Completes .passDone s (fun t => t.cornice.pass = none ∧
        rdn t Reg.CORNICE_PASSES = (rdn s Reg.CORNICE_PASSES + 1) % 2 ^ 64 ∧
        EventPosted s t d false (1 + p.status * 256 + (if p.firstImm.isSome then 2 ^ 17 else 0)) (p.w 15)
          (p.skipped + (p.firstImm.getD 0xFFFFFFFF) * 2 ^ 32))) ∧
    (s.cornice.waiting = [e] → e.map = map → EventFree { s with cornice := { s.cornice with waiting := [] } } d map →
      Completes (.eventSlotFree map) s (fun t => t.cornice.waiting = [] ∧ rdb t Reg.CORNICE_STATUS 6 = false ∧
        getNum t (evtRing d map).1.1 4 = (getNum s (evtRing d map).1.1 4 + 1) % 2 ^ 32)) ∧
    (s.cornice.waiting = [e] → e.map = map →
      2 ^ (evtRing d map).1.2 ≤ ctrDiff (getNum s (evtRing d map).1.1 4) (getNum s ((evtRing d map).1.1 + 8) 4) →
      Completes (.eventSlotFree map) s (fun t => t.cornice = s.cornice ∧ rdb t Reg.CORNICE_STATUS 6 = true ∧ t.mem = s.mem)) ∧
    (let f (i hi lo : Nat) : Nat := fld (m.desc.getD i 0) hi lo
      let w (i : Nat) : Nat := getNum s (f 2 47 0 + 4 * i) 4
      let hit := f 3 47 0
      let base := (evtRing d true).1.1
      s.cornice.map = some m → m.done = false → m.told = false → m.status = 0 → f 4 23 0 = 1 → CorReads s d (f 2 47 0) 32 →
      deadRay [w 0, w 1, w 2, w 4, w 5, w 6, w 3, w 7] = true → inWin d true hit 16 = true → Reach s .cornice hit 2 →
      EventFree s d true → hit + 16 ≤ base ∨ base + 64 + 2 ^ (evtRing d true).1.2 * 32 ≤ hit →
        Completes .mapJob s (fun t => t.cornice.map = none ∧ EventPosted s t d true 4 (m.desc.getD 6 0) 0 ∧
          getNum t hit 4 = 0x7F800000 ∧ getNum t (hit + 4) 4 = 0xFFFFFFFF ∧ getNum t (hit + 8) 8 = 0 ∧
          rdn t Reg.CORNICE_RAYS = (rdn s Reg.CORNICE_RAYS + 1) % 2 ^ 64))

/-- R377, R381, R382, R386, R388: VFETCH gives a group of vertex indices with its mask, and S4 = 1 when none remains; VEMIT
keeps the vertices of its lanes; RFETCH takes the next batch of the core's tile; PXLD reads and PXST writes the covered
pixels, nothing after the release; PXDONE releases; a NaN coordinate samples 0 and a dead ray misses; END ends the program
once its vector work has ended. -/
def Obligations.RenderInstructions : Prop :=
  ∀ (s : State) (d : DispPlan) (p : PassSt) (n r a b c dr i cnt tg : Nat) (x : Batch) (xs : List Batch) (imm : BitVec 32),
    128 ≤ n → n < 136 → s.cornice.plan = some d → s.cornice.pass = some p → imm.toNat = tg →
    let rc := getRc s n
    let lane (k j : Nat) : Nat := (vLanes s n k).getD j 0
    let laneT (t : State) (k j : Nat) : Nat := (vLanes t n k).getD j 0
    let clean (k : Nat) : Prop := (readV s n k).p = 0
    let sreg (t : State) (k : Nat) (v : Nat) : Prop := readS t n k = ⟨BitVec.ofNat 64 v, false⟩
    let cov (j : Nat) : Bool := (x.pix.getD j (0, 0, false)).2.2
    let place (j : Nat) : Nat := tilePlace tg (x.pix.getD j (0, 0, false)).1 (x.pix.getD j (0, 0, false)).2.1
    (nextGroup p (p.draws.length + 1) p.fetchAt = none → Completes (.vfetch n) s (fun t =>
      sreg t 2 0 ∧ sreg t 4 1 ∧ t.regs = s.regs ∧ t.mem = s.mem)) ∧
    (nextGroup p (p.draws.length + 1) p.fetchAt = some (dr, i, cnt) →
      (∀ k, k < cnt → inWin d false ((p.draws.getD dr (0, 0, 0)).1 + 4 * (i + k)) 4 = true) →
      Completes (.vfetch n) s (fun t => sreg t 2 (2 ^ cnt - 1) ∧ sreg t 3 dr ∧ sreg t 4 0 ∧
        (getRc t n).group = some (dr, i, cnt) ∧ t.cornice.pass = some { p with fetchAt := (dr, i + cnt) } ∧ t.mem = s.mem)) ∧
    (a < 25 → rc.group = some (dr, i, cnt) → cnt ≤ 64 → (readS s n 2).p = false → (∀ k, k < 8 → clean (a + k)) →
      Completes (.vemit n a) s (fun t => ∃ q, t.cornice.pass = some q ∧ ∀ k, k < cnt → bit (readS s n 2).v k = true →
        Tab.find q.emitted (dr * 2 ^ 32 + i + k) = some ((List.range 8).map (fun j => BitVec.ofNat 32 (lane (a + j) k))))) ∧
    (rc.tile = some r →
      (rc.work = x :: xs → Completes (.rfetch n) s (fun t => (getRc t n).work = xs ∧ (getRc t n).batch = some x ∧
        (getRc t n).acquired = false ∧ (getRc t n).released = false ∧ sreg t 1 x.seq ∧ sreg t 3 x.draw ∧ sreg t 4 0 ∧
        (∀ j, j < 64 → bit (readS t n 2).v j = cov j) ∧ t.mem = s.mem)) ∧
      (rc.work = [] → Completes (.rfetch n) s (fun t => (getRc t n).batch = none ∧ sreg t 2 0 ∧ sreg t 4 1 ∧
        t.mem = s.mem)) ∧
      (rc.batch = some x → tg < 4 → b < 32 →
        Completes (.pxld n b imm) s (fun t => (getRc t n).acquired = true ∧ t.mem = s.mem ∧ t.regs = s.regs ∧
          ∀ j, j < 64 → laneT t b j = (if cov j then (Tab.get (0, false) rc.pix (place j)).1.toNat else 0)) ∧
        (rc.released = false → Completes (.pxst n b imm) s (fun t => (getRc t n).acquired = true ∧ t.mem = s.mem ∧
          t.regs = s.regs ∧ ∀ j, j < 64 → cov j = true → (∀ k, k < 64 → cov k = true → k ≠ j → place k ≠ place j) →
            (Tab.get (0, true) (getRc t n).pix (place j)).1.toNat = lane b j)) ∧
        (rc.released = true → Completes (.pxst n b imm) s (fun t => rdb t Reg.CORNICE_STATUS 5 = true ∧
          RegsOnly s t [Reg.CORNICE_STATUS, Reg.CORNICE_EVCNT])))) ∧
    Completes (.pxdone n) s (fun t => getRc t n = { rc with released := true, acquired := false } ∧
      t.cornice.pass = s.cornice.pass ∧ t.regs = s.regs ∧ t.mem = s.mem) ∧
    (tg < p.tex.2 → r < 29 → a < 32 → b < 32 → c < 32 → tg < 32 → clean a → clean b → clean c →
      CorReads s d (p.tex.1 + 32 * tg) 32 → (texOf ((getWords s (p.tex.1 + 32 * tg) 4).map (·.v))).ok = true →
      (∀ j, j < 64 → fp32.decode (lane a j) = .nan ∨ fp32.decode (lane b j) = .nan) →
      Completes (.tex n r a b c imm) s (fun t => (∀ k j, k < 4 → j < 64 → laneT t (r + k) j = 0) ∧ t.mem = s.mem)) ∧
    (r < 29 → a < 25 → (∀ k, k < 8 → clean (a + k)) →
      (∀ j, j < 64 → deadRay ((List.range 8).map (fun k => lane (a + k) j)) = true) →
      Completes (.ray n r a) s (fun t => (∀ j, j < 64 → laneT t r j = 0x7F800000 ∧ laneT t (r + 1) j = 0xFFFFFFFF ∧
        laneT t (r + 2) j = 0 ∧ laneT t (r + 3) j = 0) ∧ t.mem = s.mem)) ∧
    ((getCore s n).qv = [] → p.phase = .binning ∨ (p.phase = .tiles ∧ p.firstImm = none) →
      Completes (.end_ n) s (fun t => running t n = false ∧ getRc t n = {})) ∧
    ((getCore s n).qv ≠ [] → Completes (.end_ n) s (fun t => CoreOnly s t n ∧
      ∃ q, (getCore t n).qc = q :: (getCore s n).qc ∧ (decodeSlot q.slot).op = 0xEF))

/-- R390-R392: a head's ready flip takes effect at its next vertical blank, with FLIP_DONE; a line not fully read is sent
black and counted, and one that holds poison is dropped with UC 0x90; a head ordered to its ALT_BASE switches at its
frame start; a plug trains the link's lanes. -/
def Obligations.DisplayHeads : Prop :=
  ∀ (s : State) (d : DispPlan) (c : HeadCfg) (h line base lanes : Nat) (tag : Word), h < 4 → s.cornice.plan = some d →
    headCfg s h = some c →
    let a := rdn s (Reg.HEAD_SCAN h) + line * c.pitch
    let frames (t : State) : Prop := rdn t (Reg.HEAD_FRAMES h) = (rdn s (Reg.HEAD_FRAMES h) + 1) % 2 ^ 32
    let under (t : State) : Prop := rdn t (Reg.HEAD_UNDERRUN h) = min (rdn s (Reg.HEAD_UNDERRUN h) + 1) (2 ^ 32 - 1) ∧
      t.out.head? = some (.line h line true) ∧ t.mem = s.mem
    let open_ : Prop := ∀ k, dieOfAddr a = some k → (getDie s k).linksClosed = false
    ((getHead s h).next = none → Completes (.vblankStart h) s (fun t => frames t ∧ RegsOnly s t [Reg.HEAD_FRAMES h])) ∧
    ((getHead s h).next = some (base, tag) → base < 2 ^ 48 → EventFree s d false → Completes (.vblankStart h) s (fun t =>
      frames t ∧ rdn t (Reg.HEAD_SCAN h) = base ∧ (getHead t h).next = none ∧ rdb t (Reg.HEAD_STATUS h) 3 = false ∧
      EventPosted s t d false (3 + h * 2 ^ 20) tag 0)) ∧
    Completes (.headLineStart h line false) s (fun t => under t ∧ rdb t Reg.CORNICE_STATUS 4 = true) ∧
    (open_ → inWin d false a (c.w * 4) = true → Reach s .cornice a (ceilDiv (c.w * 4) 8) → 1 ≤ c.w →
      (anyPoison s a (c.w * 4) = false → Completes (.headLineStart h line true) s (fun t =>
        t.out.head? = some (.line h line false) ∧ rd t (Reg.HEAD_UNDERRUN h) = rd s (Reg.HEAD_UNDERRUN h) ∧ t.mem = s.mem)) ∧
      (anyPoison s a (c.w * 4) = true → Completes (.headLineStart h line true) s (fun t => under t ∧
        rdb t (Reg.ERR_STATUS .package 0) 2 = true ∧ rdf t (Reg.ERR_STATUS .package 0) 23 16 = 0x90))) ∧
    ((getHead s h).altReq = true → c.alt < 2 ^ 48 → Completes (.headFrameStart h) s (fun t =>
      rdn t (Reg.HEAD_SCAN h) = c.alt ∧ rdb t (Reg.HEAD_STATUS h) 3 = true ∧ (getHead t h).altReq = false ∧
      SameRegs s t [Reg.HEAD_SCAN h, Reg.HEAD_STATUS h] ∧ t.mem = s.mem)) ∧
    ((getHead s h).altReq = false → Completes (.headFrameStart h) s (fun t => t = s)) ∧
    (lanes = 1 ∨ lanes = 2 ∨ lanes = 4 → Completes (.dpHotPlug h true lanes) s (fun t => rdb t (Reg.HEAD_STATUS h) 0 = true ∧
      rdf t (Reg.HEAD_STATUS h) 2 1 = lanes / 2 ∧ RegsOnly s t [Reg.HEAD_STATUS h])) ∧
    Completes (.dpHotPlug h false lanes) s (fun t => rdb t (Reg.HEAD_STATUS h) 0 = false ∧
      RegsOnly s t [Reg.HEAD_STATUS h])

/-! ### Starts, power, settings, records, pins and debug (12, 15, 16) -/

/-- Firmware of a slot boots, or hub ROM stays in recovery with aperture entries 0-7 of the physical function on the
32 MiB at the watermark (R396, R397). -/
def Starts (s : State) (i : Instr) : Prop :=
  (s.power.nvm.trial = none → s.power.nvm.active < 2 → (nvmCopy s 0).seq ≠ 0 →
    slotSvn s s.power.nvm.active ≠ none → Completes i s (fun t => t.power.boot = .started ∧
      t.power.force = modeAtStart s ∧ t.power.nvm = s.power.nvm ∧ t.pins.porst = s.pins.porst)) ∧
  ((nvmCopy s 0).seq = 0 ∨ (∀ k, slotSvn s k = none) → Completes i s (fun t => t.power.boot = .recovery ∧
    rdb t Reg.SERAC_HOLD 0 = true ∧ rdb t Reg.SERAC_HOLD 31 = true ∧
    (∀ p, p < 8 → rdb t (Reg.RIME_STATUS p) 0 = (p == 3)) ∧
    ∀ k, k < 8 → aptOf t 16 k = ⟨watermark t + k * 0x400000, true, true⟩))

/-- A flag of R403 changes, EMERG_EV sets and Icecore holds the event. -/
def EmergFlag (s t : State) (i : Nat) (on : Bool) : Prop :=
  rdb t Reg.PWR_STATUS i = on ∧ rdb t Reg.PWR_STATUS 2 = true ∧
  t.power.ice.events.head? = some ⟨2, i, b2n on, now s⟩ ∧ t.mem = s.mem

/-- R395-R397, R402: a cold start or a wake boots a good slot or enters recovery, where RECOVERY_LOAD alone is served;
the device is ready when its clocks run and its stores are filled. R399-R401, R425: MODE_SET records a request or
refuses it, the change runs to MODE_CHANGE_DONE, Idle holds while no core runs and ends with a START; a regulator's
report ends its step, and a missing one is die FE 0x6B. R403, R404: emergencies set and clear with their thresholds,
bring Field, and throttle CCLK to /6. R407: an activation waits, proceeds by a device restart, or is abandoned. -/
def Obligations.StartsAndModes : Prop :=
  ∀ (s : State) (m : Mbx) (slot len core die pkg k old new v : Nat) (w1 w2 : Word) (why : WakeCause)
    (tj : List Celsius10), core < 128 → die < 4 →
    let p := s.power
    let noted (i : Instr) (P : State → Prop) : Prop := Completes i s (fun t => .mailbox m.tag 0 ∈ t.out ∧ P t)
    let hi := p.nvm.platform.thermHi
    let lim := p.nvm.platform.pwrLimit
    let asked : Bool := bit w1 3 || decide (fld w1 63 8 ≠ 0) || decide (fld w2 63 32 ≠ 0)
    let mode := fld w1 2 0
    let mask := fld w1 7 4
    let open2 : Bool := allFns.any (fun fn => instState s fn == 2 || instState s fn == 3)
    (p.boot = .held → s.pins.porst = true → s.pins.safePorst = true → Starts s .coldStart) ∧
    (p.boot ≠ .held ∨ s.pins.porst = false ∨ s.pins.safePorst = false → Completes .coldStart s (fun t => t = s)) ∧
    (p.boot = .standby → why = .wakeN ∨ p.wakeTimer ≠ 0 → Starts s (.standbyWake why)) ∧
    (p.boot ≠ .standby ∨ (why ≠ .wakeN ∧ p.wakeTimer = 0) → Completes (.standbyWake why) s (fun t => t = s)) ∧
    (p.boot = .started → s.clk.locked = true → s.serac.devRestart = false → filled s = true → p.actSlot = none →
      rdf s Reg.PWR_MODE 5 3 ≠ 4 → s.serac.slice = none → Completes .deviceReady s (fun t => t.power.boot = .ready ∧
        rdb t Reg.SERAC_HOLD 0 = false ∧ rdb t Reg.SERAC_STATUS 0 = decide (rdf s Reg.SERAC_INJ_RESULT 9 0 = 1023))) ∧
    (p.boot ≠ .started ∨ s.clk.locked = false ∨ filled s = false → Completes .deviceReady s (fun t => t = s)) ∧
    (MailboxOpen s m → MailboxAnswers (.recoveryLoad m slot len) s m 3 [] (HostSame s)) ∧
    (p.boot = .recovery → rdb s (Reg.MBX_STATUS 16) 0 = false → slot < 2 →
      (0x2000000 < len → Completes (.recoveryLoad m slot len) s (fun t => t.out.head? = some (.mailbox m.tag 2) ∧
        t.power.boot = .recovery ∧ Tab.get ({} : Slot) t.power.slots slot = {})) ∧
      (len ≤ 0x2000000 → 1 ≤ len → Reach s (.rime 3 .normal) (watermark s) (len / 8 + 1) →
        (∀ a, watermark s ≤ a → a < watermark s + len → poisonAt s a = false) →
        Config.verifyPackage (getBytes s (watermark s) len) = some v → p.nvm.minSvn ≤ v → p.nvm.trial = none →
        p.nvm.active < 2 → (nvmCopy s 0).seq ≠ 0 → s.pins.porst = true → s.pins.safePorst = true →
        noted (.recoveryLoad m slot len) (fun t => t.power.boot = .started ∧
          Tab.get ({} : Slot) t.power.slots slot = ⟨getBytes s (watermark s) len, true, v⟩))) ∧
    (MailboxOpen s m → p.changing.isSome = true →
      (asked = true ∨ mode = 3 ∨ 4 < mode ∨ (mask ≠ 0 ∧ mode ≠ 2) ∨ mask ∈ [7, 11, 13, 14, 15] →
        MailboxAnswers (.modeSet m w1 w2) s m 2 [] (fun t => t.power = s.power ∧ HostSame s t)) ∧
      (asked = false → mode < 3 → mask = 0 → MailboxAnswers (.modeSet m w1 w2) s m 0 [] (fun t =>
        rdf t Reg.PWR_MODE 5 3 = mode ∧ rdf t Reg.PWR_MODE 13 10 = 0 ∧ t.power = s.power ∧ HostSame s t)) ∧
      (asked = false → mode = 4 → mask = 0 → standbyOk s = false → MailboxAnswers (.modeSet m w1 w2) s m 3 []
        (fun t => t.power = s.power ∧ HostSame s t)) ∧
      (asked = false → mode = 4 → mask = 0 → standbyOk s = true → MailboxAnswers (.modeSet m w1 w2) s m 0 []
        (fun t => rdf t Reg.PWR_MODE 5 3 = 4 ∧ t.power.wakeTimer = fld w2 31 0 ∧ t.mem = s.mem))) ∧
    (MailboxOpen s m → p.changing = none → emergency s = false → s.serac.restarting = [] → asked = false → mode < 3 →
      mask = 0 → p.force ≠ mode → noted (.modeSet m w1 w2) (fun t => t.power.changing = some (p.force, mode) ∧
        rdb t Reg.PWR_MODE 14 = true)) ∧
    (p.changing = none ∨ (p.changing = some (old, new) ∧ ratesDone s new = false) →
      Completes .modeChangeDone s (fun t => t = s)) ∧
    (p.changing = some (old, new) → ratesDone s new = true → p.unparking = [] → (∀ d, d < 4 → parked s d = false) →
      rdf s Reg.PWR_MODE 13 10 = 0 → rdf s Reg.PWR_MODE 5 3 = new → new < 3 → emergency s = false → p.actSlot = none →
      s.serac.restarting = [] → s.rime.jobs = [] → s.rime.logCfg = none → Completes .modeChangeDone s (fun t =>
        t.power.changing = none ∧ t.power.force = new ∧ rdf t Reg.PWR_MODE 2 0 = new ∧ rdb t Reg.PWR_MODE 14 = false ∧
        rdb t Reg.PWR_STATUS 5 = false ∧ rdb t Reg.PWR_STATUS 3 = true ∧ t.mem = s.mem)) ∧
    (booted s = true → rdf s Reg.PWR_MODE 2 0 ≠ 3 → p.changing = none → s.serac.devRestart = false →
      p.nvm.platform.idleDelay ≠ 0 → (∀ n, n < 128 → running s n = false) → s.snow.ttq = [] →
      Completes .idleEntry s (fun t => rdf t Reg.PWR_MODE 2 0 = 3 ∧ RegsOnly s t [Reg.PWR_MODE] ∧
        ∀ d, d < 4 → cclkGated t d = true)) ∧
    (running s core = true → Completes .idleEntry s (fun t => t = s)) ∧
    (rdf s Reg.PWR_MODE 2 0 = 3 → running s core = false → s.serac.slice = none → Completes (.idleExit core) s (fun t =>
      rdf t Reg.PWR_MODE 2 0 = p.force % 8 ∧ running t core = true ∧ t.mem = s.mem)) ∧
    (rdf s Reg.PWR_MODE 2 0 ≠ 3 → Completes (.idleExit core) s (fun t => t = s)) ∧
    (p.changing = none → (getDie s die).avsNext = some v → Completes (.avsTargetReached die) s (fun t =>
      t = setDie s die { getDie s die with avsTarget := v, avsNext := none })) ∧
    ((getDie s die).avsNext = none → Completes (.avsTargetReached die) s (fun t => t = s) ∧
      Completes (.avsTimeout die) s (fun t => t = s)) ∧
    ((getDie s die).avsNext = some v → Completes (.avsTimeout die) s (fun t =>
      t.reports = s.reports ++ [⟨.die, die, .fe, 0x6B, 0, false⟩] ∧ rdb t (Reg.ERR_STATUS .die die) 3 = true ∧
      t.mem = s.mem)) ∧
    (hubOn s = true →
      (rdb s Reg.PWR_STATUS 0 = false → (∃ x ∈ tj, (hi : Int) * 10 ≤ x) →
        (p.changing.isSome = true → Completes (.thermEmergSet tj) s (fun t => EmergFlag s t 0 true)) ∧
        (p.changing = none → serving s 3 = true → s.serac.devRestart = false → s.serac.slice = none → p.force ≠ 2 →
          Completes (.thermEmergSet tj) s (fun t => rdb t Reg.PWR_STATUS 0 = true ∧
            t.power.changing = some (p.force, 2)))) ∧
      ((∀ x ∈ tj, x < (hi : Int) * 10) → Completes (.thermEmergSet tj) s (fun t => RegsOnly s t [Reg.PWR_TJ])) ∧
      (rdb s Reg.PWR_STATUS 0 = true → rdb s Reg.PWR_STATUS 1 = true → (∀ x ∈ tj, x < (hi : Int) * 10 - 50) →
        Completes (.thermEmergClear tj) s (fun t => EmergFlag s t 0 false ∧ rdb t Reg.PWR_STATUS 1 = true ∧
          t.power.emergHold = p.emergHold)) ∧
      (rdb s Reg.PWR_STATUS 1 = false → lim * 10 < pkg → p.changing.isSome = true →
        Completes (.powerEmergSet pkg) s (fun t => EmergFlag s t 1 true ∧ rdf t Reg.PWR_PKG 15 0 = pkg % 65536)) ∧
      (pkg ≤ lim * 10 → Completes (.powerEmergSet pkg) s (fun t => RegsOnly s t [Reg.PWR_PKG])) ∧
      (rdb s Reg.PWR_STATUS 1 = true → rdb s Reg.PWR_STATUS 0 = false → pkg * 100 < lim * 950 → s.rime.jobs = [] →
        p.actSlot = none → p.changing.isSome = true → Completes (.powerEmergClear pkg) s (fun t =>
          EmergFlag s t 1 false ∧ t.power.emergHold = false))) ∧
    (booted s = true → s.serac.devRestart = false → emergency s = true → p.force ≠ 2 → rdb s Reg.PWR_STATUS 5 = false →
      Completes .throttleTimeout s (fun t => rdb t Reg.PWR_STATUS 5 = true ∧
        (∀ d, d < 4 → rdf t (Reg.DIE_CLK_CTL d) 2 0 = 6) ∧ t.mem = s.mem)) ∧
    (emergency s = false ∨ p.force = 2 → Completes .throttleTimeout s (fun t => t = s)) ∧
    (emergency s = true → p.force = 2 → p.changing = none → Completes .emergencyHoldTimer s (fun t =>
      t = { s with power := { p with emergHold := true } })) ∧
    (emergency s = false → Completes .emergencyHoldTimer s (fun t => t = s)) ∧
    (MailboxOpen s m →
      (2 ≤ slot → p.changing.isSome = true → p.actSlot = none → MailboxAnswers (.fwActivate m slot) s m 2 []
        (fun t => t.power = s.power ∧ HostSame s t)) ∧
      (slot < 2 → (Tab.get ({} : Slot) p.slots slot).valid = false ∨ rdf s Reg.FW_STATUS 0 0 = slot ∨ open2 = true →
        p.changing.isSome = true → p.actSlot = none → MailboxAnswers (.fwActivate m slot) s m 3 []
          (fun t => t.power = s.power ∧ HostSame s t)) ∧
      (slot < 2 → (Tab.get ({} : Slot) p.slots slot).valid = true → rdf s Reg.FW_STATUS 0 0 ≠ slot → open2 = false →
        (emergency s = true → p.changing.isSome = true → MailboxAnswers (.fwActivate m slot) s m 0 [] (fun t =>
          t.power.actSlot = some (slot, nowN s) ∧ rdb t Reg.FW_STATUS 4 = true ∧ rdb t Reg.FW_STATUS 5 = true ∧
          HostSame s t)) ∧
        (emergency s = false → 1 ≤ p.nvm.platform.fwActLimit → regionWorn s 0 = false →
          noted (.fwActivate m slot) (fun t => t.power.nvm.trial = some slot ∧ t.serac.devRestart = true)))) ∧
    (p.actSlot = some (slot, k) →
      (k + p.nvm.platform.fwActLimit * 1000000000 ≤ nowN s → Completes .fwActivationTimeout s (fun t =>
        t.power.actSlot = none ∧ t.power.slots = p.slots ∧ rdb t Reg.FW_STATUS 4 = false ∧
        rdb t Reg.FW_STATUS 5 = false ∧ rdf t Reg.FW_STATUS 10 9 = 1 ∧ rdb t Reg.FW_STATUS 6 = true ∧ t.mem = s.mem)) ∧
      (nowN s < k + p.nvm.platform.fwActLimit * 1000000000 → Completes .fwActivationTimeout s (fun t => t = s)))

/-- Every reset of R421 and R427: blocks outside the island are as at reset, SAFE_HOLD stands, and what persistent
memory and flash hold is kept. -/
def HeldReset (s t : State) : Prop :=
  t.power.boot = .held ∧ rdb t Reg.SERAC_HOLD 0 = true ∧ rdb t Reg.SERAC_HOLD 31 = true ∧ t.mem = [] ∧ t.poison = [] ∧
  t.cores = [] ∧ t.chans = [] ∧ t.rime = {} ∧ t.power.nvm = s.power.nvm ∧ t.power.slots = s.power.slots ∧
  t.power.ring = s.power.ring ∧ ∀ a, keptCold a = false → rd t a = regReset a

/-- R410-R417: NVM_STORE takes a region's good content, NVM_READ copies it out, Icecore counts each second and writes
records, Frost is armed and latches the time, its triggers and the registers. R421, R427: SAFE_PORST_N, PORST_N,
PERST_N, TRST_N and the loss of power. R32, R405: a junction limit and a lost die link restart the device. R335, R338:
debug accesses take their enables, and a power or clock cut of a claimed block waits. -/
def Obligations.RecordsPinsAndDebug : Prop :=
  ∀ (s : State) (m : Mbx) (region src dest len age die addr b k : Nat) (n : NvmSt) (r : IceRec) (val32 : BitVec 32)
    (val : Word) (tj : List Celsius10) (rails : List Nat) (x : Celsius10) (w : World) (snap power : Bool),
    die < 5 → b < 28 →
    let p := s.power
    let bytes := getBytes s src len
    let stored := (nvmCopy s region).bytes
    let old := rd s (if power then Reg.PWR_PWR_OFF else Reg.PWR_CLK_OFF)
    let cut (v : Word) : Instr := if power then .powerCutRequest w v else .clockCutRequest w v
    let cuts (t : State) : NatSet := if power then t.power.pwrCut else t.power.clkCut
    let written (t : State) (k : Nat) : Prop := rdn t Reg.ICE_SEQ = (rdn s Reg.ICE_SEQ + 1) % 2 ^ 32 ∧
      t.power.ring.head?.map (·.1) = some k ∧ rdb t Reg.ICE_STATUS 0 = true ∧ t.mem = s.mem
    let refused (t : State) : Prop := rdb t Reg.SEC_STATUS 0 = true ∧
      t.reports = s.reports ++ [⟨.package, 0, .uc, 0x94, addr, false⟩] ∧ t.mem = s.mem ∧ t.poison = s.poison
    let down (i : Instr) (src : Nat) : Prop := s.serac.lost = [] → p.boot = .ready → s.serac.devRestart = false →
      Completes i s (fun t => t.serac.devRestart = true ∧ t.power.boot = .started ∧
        .notice "Serac" "FE" src ∈ t.out)
    (MailboxOpen s m →
      (region < 2 ∨ 6 < region ∨ regionRoom region < len ∨ src < watermark s ∨ src < dramBase ∨
        0x12000000000 < src + len → MailboxAnswers (.nvmStore m region src len) s m 2 [] (fun t =>
          t.power = s.power ∧ HostSame s t)) ∧
      (2 ≤ region → region ≤ 6 → 1 ≤ len → len ≤ regionRoom region → watermark s ≤ src → src + len ≤ 0x12000000000 →
        (nvmCopy s region).oldHalf < 2 →
        Reach s (.rime 3 .normal) src (len / 8 + 1) → (∀ a, src ≤ a → a < src + len → poisonAt s a = false) →
        (regionPut p.nvm region bytes = none → MailboxAnswers (.nvmStore m region src len) s m 2 [] (fun t =>
          t.power.nvm = p.nvm ∧ t.mem = s.mem)) ∧
        (regionPut p.nvm region bytes = some n →
          (regionWorn s region = true → MailboxAnswers (.nvmStore m region src len) s m 6 [] (fun t =>
            t.power.nvm = p.nvm ∧ rdb t Reg.NVM_STATUS 2 = true ∧ t.mem = s.mem)) ∧
          (regionWorn s region = false → MailboxAnswers (.nvmStore m region src len) s m 0 [] (fun t =>
            (nvmCopy t region).bytes = bytes ∧ (nvmCopy t region).seq = (nvmCopy s region).seq + 1 ∧
            (∀ q, q ≠ region → nvmCopy t q = Tab.get {} n.copies q) ∧ rdb t Reg.NVM_STATUS 1 = true ∧ t.mem = s.mem)))) ∧
      (6 < region → MailboxAnswers (.nvmRead m region dest) s m 2 [] (HostSame s)) ∧
      (region ≤ 6 → Reach s (.rime 3 .normal) dest (stored.length / 8 + 1) → Tab.find s.host.dirty 31 = none →
        MailboxAnswers (.nvmRead m region dest) s m 0 [] (fun t => (∀ i, (h : i < stored.length) →
          getByte t (dest + i) = stored[i]) ∧
          ∀ a, a < dest ∨ dest + stored.length ≤ a → getByte t a = getByte s a)) ∧
      (recSlot s = some k → MailboxAnswers (.icecoreWrite m) s m 0 [] (fun t => written t k)) ∧
      (recSlot s = none → MailboxAnswers (.icecoreWrite m) s m 0 [] (fun t => rdb t Reg.ICE_STATUS 1 = true ∧
        t.power = s.power ∧ t.mem = s.mem)) ∧
      (recOfAge s age = none → MailboxAnswers (.icecoreRead m age dest) s m 2 [] (HostSame s)) ∧
      (recOfAge s age = some r → Reach s (.rime 3 .normal) dest 2048 → Tab.find s.host.dirty 31 = none →
        MailboxAnswers (.icecoreRead m age dest) s m 0 [] (fun t =>
          (∀ i, (h : i < (recWords r).length) → getWord t (dest + 8 * i) = PWord.clean (recWords r)[i]) ∧
          ∀ a, a < dest ∨ dest + 16384 ≤ a → getByte t a = getByte s a)) ∧
      (4194304 ≤ val32.toNat ∨ val32.toNat / 2 ^ 9 % 128 ≠ 0 ∨ 11 < val32.toNat / 32 % 16 →
        MailboxAnswers (.frostArm m val32) s m 2 [] (fun t => t.power = s.power ∧ HostSame s t)) ∧
      (val32.toNat < 4194304 → val32.toNat / 2 ^ 9 % 128 = 0 → val32.toNat / 32 % 16 ≤ 11 → val32.toNat % 2 = 1 →
        MailboxAnswers (.frostArm m val32) s m 0 [] (fun t => t.power.frost = [] ∧ t.power.frostDies = [] ∧
          rdf t Reg.FROST_STATUS 5 0 = 1 ∧ rdf t Reg.FROST_STATUS 11 7 = 0 ∧ rd t Reg.FROST_TIME = 0 ∧ t.mem = s.mem))) ∧
    (serving s 3 = true → rdn s Reg.ICE_POH ≠ 0 → rdn s Reg.ICE_POH % 3600 = 0 → recSlot s = some k →
      Completes .icecorePeriodicWrite s (fun t => written t k)) ∧
    (rdn s Reg.ICE_POH % 3600 ≠ 0 → Completes .icecorePeriodicWrite s (fun t => t = s)) ∧
    (p.boot = .ready → Completes (.icecoreSample tj rails) s (fun t =>
      Tab.get 0 t.power.ice.acc 0x40 = satAdd 64 (Tab.get 0 p.ice.acc 0x40) 1 ∧
      rdn t Reg.ICE_POH = Tab.get 0 t.power.ice.acc 0x40 % 2 ^ 64 ∧ RegsOnly { s with power := t.power } t
        [Reg.PWR_TJ, Reg.ICE_POH] ∧ t.power.nvm = p.nvm)) ∧
    (p.boot = .standby → Completes (.icecoreSample tj rails) s (fun t => t = iceAdd s 0x68 64 1)) ∧
    (p.boot = .held → Completes (.icecoreSample tj rails) s (fun t => t = s)) ∧
    (p.frostTrig = 0 → Completes .frostLatch s (fun t => t = s)) ∧
    (p.frostTrig ≠ 0 → Completes .frostLatch s (fun t => t.power.frostTrig = 0 ∧ rd t Reg.FROST_TIME = now s ∧
      rdf t Reg.FROST_STATUS 1 0 = 2 ∧ rdf t Reg.FROST_STATUS 5 2 = p.frostTrig % 16 ∧
      rdb t Reg.FROST_STATUS 6 = true ∧ frostWord t Reg.PWR_MODE = rd s Reg.PWR_MODE ∧
      SameRegs s t [Reg.FROST_TIME, Reg.FROST_STATUS, Reg.FROST_EVCNT] ∧ t.mem = s.mem)) ∧
    (Completes (.safePorstN false) s (fun t => HeldReset s t ∧ t.pins.safePorst = false ∧ t.serac = {} ∧
      t.power.ice = p.ice)) ∧
    (Completes (.porstN false) s (fun t => HeldReset s t ∧ t.pins.porst = false ∧ t.serac = s.serac ∧
      t.power.ice = p.ice ∧ ∀ a, keptCold a = true → a ≠ Reg.SERAC_HOLD → rd t a = rd s a)) ∧
    (p.boot ≠ .held → Completes (.porstN true) s (fun t => t = { s with pins := { s.pins with porst := true } }) ∧
      Completes (.safePorstN true) s (fun t => t = { s with pins := { s.pins with safePorst := true } })) ∧
    Completes .powerLoss s (fun t => HeldReset s t ∧ t.serac = {} ∧ t.power.ice.acc = (newestRec s).acc) ∧
    Completes (.trstN snap) s (fun t => t = { s with pins := { s.pins with trst := snap } }) ∧
    (snap = true ∨ s.pins.perst = false → Completes (.perstN snap) s (fun t =>
      t = { s with pins := { s.pins with perst := snap } })) ∧
    (s.pins.perst = true → hubOn s = true → (∀ fn, fn < 17 → instState s fn ≠ 2 ∧ instState s fn ≠ 3) →
      Completes (.perstN false) s (fun t => t.pins.perst = false ∧ ∀ fn, fn < 17 → (getFn t fn).bme = false ∧
        instState t fn = instState s fn ∧ rd t (Reg.MSIX_CTL fn 0) = 1)) ∧
    (x < 1250 ∨ p.boot = .held ∨ p.boot = .standby → Completes (.junctionLimit die x) s (fun t => t = s)) ∧
    (1250 ≤ x → down (.junctionLimit die x) 0x8A) ∧
    down .dieLinkFailure 0x83 ∧
    (live s 3 = true → bit old b = false →
      (w ≠ .secure → rdb s Reg.SEC_CLAIM b = true → Completes (cut (setBit old b true)) s (fun t =>
        rdb t Reg.SEC_PM_PEND b = true ∧ rdb t Reg.SEC_PM_KIND b = power ∧ rdb t Reg.SEC_STATUS 1 = true ∧
        t.power = s.power ∧ t.mem = s.mem)) ∧
      (w = .secure ∨ rdb s Reg.SEC_CLAIM b = false → Completes (cut (setBit old b true)) s (fun t => b ∈ cuts t ∧
        (∀ c, c ≠ b → (c ∈ cuts t ↔ c ∈ cuts s)) ∧ t.mem = s.mem))) ∧
    (live s 3 = false → Completes (cut val) s (fun t => t = s)) ∧
    (s.pins.trst = false → Completes (.debugAccess power addr 64 val snap) s (fun t => t = s)) ∧
    (s.pins.trst = true → Reach s .debug addr 1 →
      (debugMemOk s power addr = false → Completes (.debugAccess power addr 64 val snap) s (fun t => refused t ∧
        (power = false → t.out.head? = some (.readData addr 0 true)))) ∧
      (debugMemOk s false addr = true → Completes (.debugAccess false addr 64 val snap) s (fun t =>
        t.out.head? = some (.readData addr (getWord s addr).v (getWord s addr).p) ∧ t.mem = s.mem)) ∧
      (debugMemOk s true addr = true → Tab.find s.host.dirty 31 = none → Completes (.debugAccess true addr 64 val snap) s
        (fun t => getWord t addr = ⟨val, false⟩ ∧ ∀ a, a < addr ∨ addr + 8 ≤ a → getByte t a = getByte s a))) ∧
    (s.pins.trst = true → rdb s Reg.SEC_DBG 3 = true → p.frostDies = [] →
      Completes (.debugAccess false Reg.PWR_MODE 64 val true) s (fun t =>
        t = { s with out := .readData Reg.PWR_MODE 0 false :: s.out }) ∧
      Completes (.debugAccess false Reg.PWR_MODE 64 val false) s (fun t =>
        t = { s with out := .readData Reg.PWR_MODE (rd s Reg.PWR_MODE) false :: s.out }))

/-! ### Steps, reset and what every step keeps -/

/-- A step runs the command at the front of the queue on the state with the queue's rest. -/
def Obligations.StepRunsFrontCommand : Prop :=
  ∀ (s : State) (c : Instr) (rest : List Instr),
    step { s with pending := c :: rest } = exec c { s with pending := rest }

/-- With no command waiting a step is one PCLK cycle (the model's choice, log entry 40): Snowline advances by SNOW_INCR,
CORE_CYCLES of running cores by their clock's cycles, and each watchdog loses one µs every 250 cycles. -/
def Obligations.IdleCycle : Prop :=
  ∀ s : State, s.pending = [] →
    let c := s.clk.pclk
    let v := (now s).toNat * 2 ^ 40 + s.snow.sub.toNat + rdn s Reg.SNOW_INCR
    (s.clk.locked = false → step s = .next s) ∧
    (s.clk.locked = true → hubOn s = true → snowCut s = false → rdf s Reg.SNOW_SLEW 31 0 = 0 →
      ∃ t, step s = .next t ∧ t.pending = [] ∧ t.clk = { s.clk with pclk := c + 1 } ∧
        (now t).toNat = v / 2 ^ 40 % 2 ^ 64 ∧ t.snow.sub.toNat = v % 2 ^ 40 ∧
        (∀ n, n < 136 → rdn t (Reg.CORE_CYCLES n) =
          if running s n then (rdn s (Reg.CORE_CYCLES n) + coreClocks s (dieOfCore n) c) % 2 ^ 64
          else rdn s (Reg.CORE_CYCLES n)) ∧
        (∀ p, p < 8 → rdn t (Reg.RIME_WDT_LEFT p) =
          if (c + 1) % 250 = 0 then rdn s (Reg.RIME_WDT_LEFT p) - 1 else rdn s (Reg.RIME_WDT_LEFT p)) ∧
        SameMem s t ∧ t.rime = s.rime ∧ t.power = s.power)

/-- After power-on reset every register reads its reset value, every memory and queue is empty, the device waits for its
reset inputs with SAFE_HOLD held for cause START, Snowline counts 4 ns a cycle, and no processor serves. -/
def Obligations.ResetState : Prop :=
  State.reset.canonical ∧ State.reset.pending = [] ∧ (∀ a, rd State.reset a = regReset a) ∧
  (∀ a, getByte State.reset a = 0 ∧ poisonAt State.reset a = false) ∧ State.reset.power.boot = .held ∧
  rdb State.reset Reg.SERAC_HOLD 0 = true ∧ rdb State.reset Reg.SERAC_HOLD 31 = true ∧
  rdn State.reset Reg.SNOW_INCR = 2 ^ 42 ∧ (∀ p, p < 8 → serving State.reset p = false) ∧
  (∀ n, n < 136 → running State.reset n = false)

/-- Every step of a state in canonical form answers a next state, which is in canonical form, and takes one command from
the queue: no command of the block stops. -/
def Obligations.StepKeepsCanonical : Prop :=
  ∀ s : State, s.canonical → ∃ t, step s = .next t ∧ t.canonical ∧ t.pending = s.pending.tail
end

