-- ==== Sys2Proof/Laws/Bits.lean ====
section
/-! SUPPORT. What a bit field of a word reads after it, or another field, is written. -/

namespace Sys2Proof

/-- The bits of a mask. -/
theorem maskOf_getLsbD (hi lo i : Nat) (h : lo ≤ hi) (hi64 : hi < 64) :
    (maskOf hi lo).getLsbD i = decide (lo ≤ i ∧ i ≤ hi) := by
  unfold maskOf
  rw [BitVec.getLsbD_ofNat, Nat.testBit_mul_two_pow, Nat.testBit_two_pow_sub_one]
  by_cases h1 : lo ≤ i <;> by_cases h2 : i ≤ hi <;> simp [h1, h2] <;> omega

/-- The bits of a word after a field is written. -/
theorem setFld_getLsbD (v : Word) (hi lo x i : Nat) (h : lo ≤ hi) (hi64 : hi < 64) :
    (setFld v hi lo x).getLsbD i = if lo ≤ i ∧ i ≤ hi then x.testBit (i - lo) else v.getLsbD i := by
  unfold setFld
  rw [BitVec.getLsbD_or, BitVec.getLsbD_and, BitVec.getLsbD_and, BitVec.getLsbD_not,
    maskOf_getLsbD _ _ _ h hi64, BitVec.getLsbD_ofNat, Nat.testBit_mul_two_pow]
  by_cases hm : lo ≤ i ∧ i ≤ hi
  · obtain ⟨h1, h2⟩ := hm
    have : i < 64 := by omega
    simp [h1, h2, this]
  · have hf : ¬ (lo ≤ i ∧ i ≤ hi) := hm
    rw [if_neg hf]
    simp only [hf, decide_false, Bool.not_false, Bool.and_true, Bool.and_false, Bool.or_false]
    by_cases hw : i < 64
    · simp [hw]
    · simp [hw, BitVec.getLsbD_of_ge v i (by omega)]

/-- The bits of a field. -/
theorem fld_testBit (v : Word) (hi lo i : Nat) :
    (fld v hi lo).testBit i = (decide (i < hi + 1 - lo) && v.getLsbD (lo + i)) := by
  unfold fld
  rw [Nat.testBit_mod_two_pow, Nat.testBit_div_two_pow]
  simp [BitVec.getLsbD, Nat.add_comm]

/-- A field reads what was written to it. -/
@[simp] theorem fld_setFld_same (v : Word) (hi lo x : Nat) (h : lo ≤ hi) (hi64 : hi < 64) :
    fld (setFld v hi lo x) hi lo = x % 2 ^ (hi + 1 - lo) := by
  apply Nat.eq_of_testBit_eq
  intro i
  rw [fld_testBit, setFld_getLsbD _ _ _ _ _ h hi64, Nat.testBit_mod_two_pow]
  by_cases hi' : i < hi + 1 - lo
  · have : lo ≤ lo + i ∧ lo + i ≤ hi := by omega
    simp [hi', this]
  · simp [hi']

/-- A field that does not meet the one written reads as before. -/
theorem fld_setFld_disjoint (v : Word) (hi lo hi' lo' x : Nat) (h : lo ≤ hi) (hi64 : hi < 64)
    (hd : hi' < lo ∨ hi < lo') : fld (setFld v hi lo x) hi' lo' = fld v hi' lo' := by
  apply Nat.eq_of_testBit_eq
  intro i
  rw [fld_testBit, fld_testBit, setFld_getLsbD _ _ _ _ _ h hi64]
  by_cases hi' : i < hi' + 1 - lo'
  · have : ¬ (lo ≤ lo' + i ∧ lo' + i ≤ hi) := by omega
    simp [this]
  · simp [hi']

/-- A bit after a field is written. -/
theorem bit_setFld (v : Word) (hi lo x i : Nat) (h : lo ≤ hi) (hi64 : hi < 64) :
    bit (setFld v hi lo x) i = if lo ≤ i ∧ i ≤ hi then x.testBit (i - lo) else bit v i :=
  setFld_getLsbD v hi lo x i h hi64

/-- A bit after a bit is written. -/
theorem bit_setBit (v : Word) (i j : Nat) (b : Bool) (hi : i < 64) :
    bit (setBit v i b) j = if j = i then b else bit v j := by
  unfold setBit
  rw [bit_setFld _ _ _ _ _ (Nat.le_refl _) hi]
  by_cases h : j = i
  · subst h; cases b <;> simp
  · have : ¬ (i ≤ j ∧ j ≤ i) := by omega
    simp [h, this]

@[simp] theorem bit_setBit_same (v : Word) (i : Nat) (b : Bool) (hi : i < 64) : bit (setBit v i b) i = b := by
  simp [bit_setBit _ _ _ _ hi]

/-- A field that does not hold the bit written reads as before. -/
theorem fld_setBit (v : Word) (i hi lo : Nat) (b : Bool) (hi64 : i < 64) (hd : hi < i ∨ i < lo) :
    fld (setBit v i b) hi lo = fld v hi lo :=
  fld_setFld_disjoint v i i hi lo _ (Nat.le_refl _) hi64 (by omega)

/-- The only bit of a single-bit word. -/
theorem bit_oneBit (i j : Nat) (hi : i < 64) : bit (oneBit i) j = decide (j = i) := by
  unfold bit oneBit
  rw [BitVec.getLsbD_ofNat, Nat.testBit_two_pow]
  by_cases h : j = i
  · subst h; simp [hi]
  · simp [h, Ne.symm h]

/-- A single-bit word has one bit set. -/
theorem popcount_oneBit (i : Nat) (hi : i < 64) : popcount (oneBit i) = 1 := by
  interval_cases i <;> decide

end Sys2Proof
end

