-- ==== Sys2Proof/Laws/State.lean ====
section
/-! SUPPORT. What each update of the state leaves unchanged, field by field: no later proof unfolds an update. -/

namespace Sys2Proof.Machine

/-! ### wr changes `regs` alone -/

@[simp] theorem wr_pending (s : State) (a : Nat) (v : Word) : (wr s a v).pending = s.pending := rfl
@[simp] theorem wr_latch (s : State) (a : Nat) (v : Word) : (wr s a v).latch = s.latch := rfl
@[simp] theorem wr_mem (s : State) (a : Nat) (v : Word) : (wr s a v).mem = s.mem := rfl
@[simp] theorem wr_poison (s : State) (a : Nat) (v : Word) : (wr s a v).poison = s.poison := rfl
@[simp] theorem wr_cores (s : State) (a : Nat) (v : Word) : (wr s a v).cores = s.cores := rfl
@[simp] theorem wr_clusters (s : State) (a : Nat) (v : Word) : (wr s a v).clusters = s.clusters := rfl
@[simp] theorem wr_dies (s : State) (a : Nat) (v : Word) : (wr s a v).dies = s.dies := rfl
@[simp] theorem wr_clk (s : State) (a : Nat) (v : Word) : (wr s a v).clk = s.clk := rfl
@[simp] theorem wr_chans (s : State) (a : Nat) (v : Word) : (wr s a v).chans = s.chans := rfl
@[simp] theorem wr_lines (s : State) (a : Nat) (v : Word) : (wr s a v).lines = s.lines := rfl
@[simp] theorem wr_credits (s : State) (a : Nat) (v : Word) : (wr s a v).credits = s.credits := rfl
@[simp] theorem wr_firn (s : State) (a : Nat) (v : Word) : (wr s a v).firn = s.firn := rfl
@[simp] theorem wr_rime (s : State) (a : Nat) (v : Word) : (wr s a v).rime = s.rime := rfl
@[simp] theorem wr_serac (s : State) (a : Nat) (v : Word) : (wr s a v).serac = s.serac := rfl
@[simp] theorem wr_baseth (s : State) (a : Nat) (v : Word) : (wr s a v).baseth = s.baseth := rfl
@[simp] theorem wr_host (s : State) (a : Nat) (v : Word) : (wr s a v).host = s.host := rfl
@[simp] theorem wr_sec (s : State) (a : Nat) (v : Word) : (wr s a v).sec = s.sec := rfl
@[simp] theorem wr_snow (s : State) (a : Nat) (v : Word) : (wr s a v).snow = s.snow := rfl
@[simp] theorem wr_streams (s : State) (a : Nat) (v : Word) : (wr s a v).streams = s.streams := rfl
@[simp] theorem wr_gateway (s : State) (a : Nat) (v : Word) : (wr s a v).gateway = s.gateway := rfl
@[simp] theorem wr_cornice (s : State) (a : Nat) (v : Word) : (wr s a v).cornice = s.cornice := rfl
@[simp] theorem wr_power (s : State) (a : Nat) (v : Word) : (wr s a v).power = s.power := rfl
@[simp] theorem wr_pins (s : State) (a : Nat) (v : Word) : (wr s a v).pins = s.pins := rfl
@[simp] theorem wr_reports (s : State) (a : Nat) (v : Word) : (wr s a v).reports = s.reports := rfl
@[simp] theorem wr_out (s : State) (a : Nat) (v : Word) : (wr s a v).out = s.out := rfl
@[simp] theorem wr_free (s : State) (a : Nat) (v : Word) : (wr s a v).free = s.free := rfl

/-! ### wrn changes `regs` alone -/

@[simp] theorem wrn_pending (s : State) (a n : Nat) : (wrn s a n).pending = s.pending := rfl
@[simp] theorem wrn_latch (s : State) (a n : Nat) : (wrn s a n).latch = s.latch := rfl
@[simp] theorem wrn_mem (s : State) (a n : Nat) : (wrn s a n).mem = s.mem := rfl
@[simp] theorem wrn_poison (s : State) (a n : Nat) : (wrn s a n).poison = s.poison := rfl
@[simp] theorem wrn_cores (s : State) (a n : Nat) : (wrn s a n).cores = s.cores := rfl
@[simp] theorem wrn_clusters (s : State) (a n : Nat) : (wrn s a n).clusters = s.clusters := rfl
@[simp] theorem wrn_dies (s : State) (a n : Nat) : (wrn s a n).dies = s.dies := rfl
@[simp] theorem wrn_clk (s : State) (a n : Nat) : (wrn s a n).clk = s.clk := rfl
@[simp] theorem wrn_chans (s : State) (a n : Nat) : (wrn s a n).chans = s.chans := rfl
@[simp] theorem wrn_lines (s : State) (a n : Nat) : (wrn s a n).lines = s.lines := rfl
@[simp] theorem wrn_credits (s : State) (a n : Nat) : (wrn s a n).credits = s.credits := rfl
@[simp] theorem wrn_firn (s : State) (a n : Nat) : (wrn s a n).firn = s.firn := rfl
@[simp] theorem wrn_rime (s : State) (a n : Nat) : (wrn s a n).rime = s.rime := rfl
@[simp] theorem wrn_serac (s : State) (a n : Nat) : (wrn s a n).serac = s.serac := rfl
@[simp] theorem wrn_baseth (s : State) (a n : Nat) : (wrn s a n).baseth = s.baseth := rfl
@[simp] theorem wrn_host (s : State) (a n : Nat) : (wrn s a n).host = s.host := rfl
@[simp] theorem wrn_sec (s : State) (a n : Nat) : (wrn s a n).sec = s.sec := rfl
@[simp] theorem wrn_snow (s : State) (a n : Nat) : (wrn s a n).snow = s.snow := rfl
@[simp] theorem wrn_streams (s : State) (a n : Nat) : (wrn s a n).streams = s.streams := rfl
@[simp] theorem wrn_gateway (s : State) (a n : Nat) : (wrn s a n).gateway = s.gateway := rfl
@[simp] theorem wrn_cornice (s : State) (a n : Nat) : (wrn s a n).cornice = s.cornice := rfl
@[simp] theorem wrn_power (s : State) (a n : Nat) : (wrn s a n).power = s.power := rfl
@[simp] theorem wrn_pins (s : State) (a n : Nat) : (wrn s a n).pins = s.pins := rfl
@[simp] theorem wrn_reports (s : State) (a n : Nat) : (wrn s a n).reports = s.reports := rfl
@[simp] theorem wrn_out (s : State) (a n : Nat) : (wrn s a n).out = s.out := rfl
@[simp] theorem wrn_free (s : State) (a n : Nat) : (wrn s a n).free = s.free := rfl

/-! ### wrf changes `regs` alone -/

@[simp] theorem wrf_pending (s : State) (a hi lo x : Nat) : (wrf s a hi lo x).pending = s.pending := rfl
@[simp] theorem wrf_latch (s : State) (a hi lo x : Nat) : (wrf s a hi lo x).latch = s.latch := rfl
@[simp] theorem wrf_mem (s : State) (a hi lo x : Nat) : (wrf s a hi lo x).mem = s.mem := rfl
@[simp] theorem wrf_poison (s : State) (a hi lo x : Nat) : (wrf s a hi lo x).poison = s.poison := rfl
@[simp] theorem wrf_cores (s : State) (a hi lo x : Nat) : (wrf s a hi lo x).cores = s.cores := rfl
@[simp] theorem wrf_clusters (s : State) (a hi lo x : Nat) : (wrf s a hi lo x).clusters = s.clusters := rfl
@[simp] theorem wrf_dies (s : State) (a hi lo x : Nat) : (wrf s a hi lo x).dies = s.dies := rfl
@[simp] theorem wrf_clk (s : State) (a hi lo x : Nat) : (wrf s a hi lo x).clk = s.clk := rfl
@[simp] theorem wrf_chans (s : State) (a hi lo x : Nat) : (wrf s a hi lo x).chans = s.chans := rfl
@[simp] theorem wrf_lines (s : State) (a hi lo x : Nat) : (wrf s a hi lo x).lines = s.lines := rfl
@[simp] theorem wrf_credits (s : State) (a hi lo x : Nat) : (wrf s a hi lo x).credits = s.credits := rfl
@[simp] theorem wrf_firn (s : State) (a hi lo x : Nat) : (wrf s a hi lo x).firn = s.firn := rfl
@[simp] theorem wrf_rime (s : State) (a hi lo x : Nat) : (wrf s a hi lo x).rime = s.rime := rfl
@[simp] theorem wrf_serac (s : State) (a hi lo x : Nat) : (wrf s a hi lo x).serac = s.serac := rfl
@[simp] theorem wrf_baseth (s : State) (a hi lo x : Nat) : (wrf s a hi lo x).baseth = s.baseth := rfl
@[simp] theorem wrf_host (s : State) (a hi lo x : Nat) : (wrf s a hi lo x).host = s.host := rfl
@[simp] theorem wrf_sec (s : State) (a hi lo x : Nat) : (wrf s a hi lo x).sec = s.sec := rfl
@[simp] theorem wrf_snow (s : State) (a hi lo x : Nat) : (wrf s a hi lo x).snow = s.snow := rfl
@[simp] theorem wrf_streams (s : State) (a hi lo x : Nat) : (wrf s a hi lo x).streams = s.streams := rfl
@[simp] theorem wrf_gateway (s : State) (a hi lo x : Nat) : (wrf s a hi lo x).gateway = s.gateway := rfl
@[simp] theorem wrf_cornice (s : State) (a hi lo x : Nat) : (wrf s a hi lo x).cornice = s.cornice := rfl
@[simp] theorem wrf_power (s : State) (a hi lo x : Nat) : (wrf s a hi lo x).power = s.power := rfl
@[simp] theorem wrf_pins (s : State) (a hi lo x : Nat) : (wrf s a hi lo x).pins = s.pins := rfl
@[simp] theorem wrf_reports (s : State) (a hi lo x : Nat) : (wrf s a hi lo x).reports = s.reports := rfl
@[simp] theorem wrf_out (s : State) (a hi lo x : Nat) : (wrf s a hi lo x).out = s.out := rfl
@[simp] theorem wrf_free (s : State) (a hi lo x : Nat) : (wrf s a hi lo x).free = s.free := rfl

/-! ### wrb changes `regs` alone -/

@[simp] theorem wrb_pending (s : State) (a i : Nat) (b : Bool) : (wrb s a i b).pending = s.pending := rfl
@[simp] theorem wrb_latch (s : State) (a i : Nat) (b : Bool) : (wrb s a i b).latch = s.latch := rfl
@[simp] theorem wrb_mem (s : State) (a i : Nat) (b : Bool) : (wrb s a i b).mem = s.mem := rfl
@[simp] theorem wrb_poison (s : State) (a i : Nat) (b : Bool) : (wrb s a i b).poison = s.poison := rfl
@[simp] theorem wrb_cores (s : State) (a i : Nat) (b : Bool) : (wrb s a i b).cores = s.cores := rfl
@[simp] theorem wrb_clusters (s : State) (a i : Nat) (b : Bool) : (wrb s a i b).clusters = s.clusters := rfl
@[simp] theorem wrb_dies (s : State) (a i : Nat) (b : Bool) : (wrb s a i b).dies = s.dies := rfl
@[simp] theorem wrb_clk (s : State) (a i : Nat) (b : Bool) : (wrb s a i b).clk = s.clk := rfl
@[simp] theorem wrb_chans (s : State) (a i : Nat) (b : Bool) : (wrb s a i b).chans = s.chans := rfl
@[simp] theorem wrb_lines (s : State) (a i : Nat) (b : Bool) : (wrb s a i b).lines = s.lines := rfl
@[simp] theorem wrb_credits (s : State) (a i : Nat) (b : Bool) : (wrb s a i b).credits = s.credits := rfl
@[simp] theorem wrb_firn (s : State) (a i : Nat) (b : Bool) : (wrb s a i b).firn = s.firn := rfl
@[simp] theorem wrb_rime (s : State) (a i : Nat) (b : Bool) : (wrb s a i b).rime = s.rime := rfl
@[simp] theorem wrb_serac (s : State) (a i : Nat) (b : Bool) : (wrb s a i b).serac = s.serac := rfl
@[simp] theorem wrb_baseth (s : State) (a i : Nat) (b : Bool) : (wrb s a i b).baseth = s.baseth := rfl
@[simp] theorem wrb_host (s : State) (a i : Nat) (b : Bool) : (wrb s a i b).host = s.host := rfl
@[simp] theorem wrb_sec (s : State) (a i : Nat) (b : Bool) : (wrb s a i b).sec = s.sec := rfl
@[simp] theorem wrb_snow (s : State) (a i : Nat) (b : Bool) : (wrb s a i b).snow = s.snow := rfl
@[simp] theorem wrb_streams (s : State) (a i : Nat) (b : Bool) : (wrb s a i b).streams = s.streams := rfl
@[simp] theorem wrb_gateway (s : State) (a i : Nat) (b : Bool) : (wrb s a i b).gateway = s.gateway := rfl
@[simp] theorem wrb_cornice (s : State) (a i : Nat) (b : Bool) : (wrb s a i b).cornice = s.cornice := rfl
@[simp] theorem wrb_power (s : State) (a i : Nat) (b : Bool) : (wrb s a i b).power = s.power := rfl
@[simp] theorem wrb_pins (s : State) (a i : Nat) (b : Bool) : (wrb s a i b).pins = s.pins := rfl
@[simp] theorem wrb_reports (s : State) (a i : Nat) (b : Bool) : (wrb s a i b).reports = s.reports := rfl
@[simp] theorem wrb_out (s : State) (a i : Nat) (b : Bool) : (wrb s a i b).out = s.out := rfl
@[simp] theorem wrb_free (s : State) (a i : Nat) (b : Bool) : (wrb s a i b).free = s.free := rfl

/-! ### incWrap changes `regs` alone -/

@[simp] theorem incWrap_pending (s : State) (a w n : Nat) : (incWrap s a w n).pending = s.pending := rfl
@[simp] theorem incWrap_latch (s : State) (a w n : Nat) : (incWrap s a w n).latch = s.latch := rfl
@[simp] theorem incWrap_mem (s : State) (a w n : Nat) : (incWrap s a w n).mem = s.mem := rfl
@[simp] theorem incWrap_poison (s : State) (a w n : Nat) : (incWrap s a w n).poison = s.poison := rfl
@[simp] theorem incWrap_cores (s : State) (a w n : Nat) : (incWrap s a w n).cores = s.cores := rfl
@[simp] theorem incWrap_clusters (s : State) (a w n : Nat) : (incWrap s a w n).clusters = s.clusters := rfl
@[simp] theorem incWrap_dies (s : State) (a w n : Nat) : (incWrap s a w n).dies = s.dies := rfl
@[simp] theorem incWrap_clk (s : State) (a w n : Nat) : (incWrap s a w n).clk = s.clk := rfl
@[simp] theorem incWrap_chans (s : State) (a w n : Nat) : (incWrap s a w n).chans = s.chans := rfl
@[simp] theorem incWrap_lines (s : State) (a w n : Nat) : (incWrap s a w n).lines = s.lines := rfl
@[simp] theorem incWrap_credits (s : State) (a w n : Nat) : (incWrap s a w n).credits = s.credits := rfl
@[simp] theorem incWrap_firn (s : State) (a w n : Nat) : (incWrap s a w n).firn = s.firn := rfl
@[simp] theorem incWrap_rime (s : State) (a w n : Nat) : (incWrap s a w n).rime = s.rime := rfl
@[simp] theorem incWrap_serac (s : State) (a w n : Nat) : (incWrap s a w n).serac = s.serac := rfl
@[simp] theorem incWrap_baseth (s : State) (a w n : Nat) : (incWrap s a w n).baseth = s.baseth := rfl
@[simp] theorem incWrap_host (s : State) (a w n : Nat) : (incWrap s a w n).host = s.host := rfl
@[simp] theorem incWrap_sec (s : State) (a w n : Nat) : (incWrap s a w n).sec = s.sec := rfl
@[simp] theorem incWrap_snow (s : State) (a w n : Nat) : (incWrap s a w n).snow = s.snow := rfl
@[simp] theorem incWrap_streams (s : State) (a w n : Nat) : (incWrap s a w n).streams = s.streams := rfl
@[simp] theorem incWrap_gateway (s : State) (a w n : Nat) : (incWrap s a w n).gateway = s.gateway := rfl
@[simp] theorem incWrap_cornice (s : State) (a w n : Nat) : (incWrap s a w n).cornice = s.cornice := rfl
@[simp] theorem incWrap_power (s : State) (a w n : Nat) : (incWrap s a w n).power = s.power := rfl
@[simp] theorem incWrap_pins (s : State) (a w n : Nat) : (incWrap s a w n).pins = s.pins := rfl
@[simp] theorem incWrap_reports (s : State) (a w n : Nat) : (incWrap s a w n).reports = s.reports := rfl
@[simp] theorem incWrap_out (s : State) (a w n : Nat) : (incWrap s a w n).out = s.out := rfl
@[simp] theorem incWrap_free (s : State) (a w n : Nat) : (incWrap s a w n).free = s.free := rfl

/-! ### incSat changes `regs` alone -/

@[simp] theorem incSat_pending (s : State) (a w n : Nat) : (incSat s a w n).pending = s.pending := rfl
@[simp] theorem incSat_latch (s : State) (a w n : Nat) : (incSat s a w n).latch = s.latch := rfl
@[simp] theorem incSat_mem (s : State) (a w n : Nat) : (incSat s a w n).mem = s.mem := rfl
@[simp] theorem incSat_poison (s : State) (a w n : Nat) : (incSat s a w n).poison = s.poison := rfl
@[simp] theorem incSat_cores (s : State) (a w n : Nat) : (incSat s a w n).cores = s.cores := rfl
@[simp] theorem incSat_clusters (s : State) (a w n : Nat) : (incSat s a w n).clusters = s.clusters := rfl
@[simp] theorem incSat_dies (s : State) (a w n : Nat) : (incSat s a w n).dies = s.dies := rfl
@[simp] theorem incSat_clk (s : State) (a w n : Nat) : (incSat s a w n).clk = s.clk := rfl
@[simp] theorem incSat_chans (s : State) (a w n : Nat) : (incSat s a w n).chans = s.chans := rfl
@[simp] theorem incSat_lines (s : State) (a w n : Nat) : (incSat s a w n).lines = s.lines := rfl
@[simp] theorem incSat_credits (s : State) (a w n : Nat) : (incSat s a w n).credits = s.credits := rfl
@[simp] theorem incSat_firn (s : State) (a w n : Nat) : (incSat s a w n).firn = s.firn := rfl
@[simp] theorem incSat_rime (s : State) (a w n : Nat) : (incSat s a w n).rime = s.rime := rfl
@[simp] theorem incSat_serac (s : State) (a w n : Nat) : (incSat s a w n).serac = s.serac := rfl
@[simp] theorem incSat_baseth (s : State) (a w n : Nat) : (incSat s a w n).baseth = s.baseth := rfl
@[simp] theorem incSat_host (s : State) (a w n : Nat) : (incSat s a w n).host = s.host := rfl
@[simp] theorem incSat_sec (s : State) (a w n : Nat) : (incSat s a w n).sec = s.sec := rfl
@[simp] theorem incSat_snow (s : State) (a w n : Nat) : (incSat s a w n).snow = s.snow := rfl
@[simp] theorem incSat_streams (s : State) (a w n : Nat) : (incSat s a w n).streams = s.streams := rfl
@[simp] theorem incSat_gateway (s : State) (a w n : Nat) : (incSat s a w n).gateway = s.gateway := rfl
@[simp] theorem incSat_cornice (s : State) (a w n : Nat) : (incSat s a w n).cornice = s.cornice := rfl
@[simp] theorem incSat_power (s : State) (a w n : Nat) : (incSat s a w n).power = s.power := rfl
@[simp] theorem incSat_pins (s : State) (a w n : Nat) : (incSat s a w n).pins = s.pins := rfl
@[simp] theorem incSat_reports (s : State) (a w n : Nat) : (incSat s a w n).reports = s.reports := rfl
@[simp] theorem incSat_out (s : State) (a w n : Nat) : (incSat s a w n).out = s.out := rfl
@[simp] theorem incSat_free (s : State) (a w n : Nat) : (incSat s a w n).free = s.free := rfl

/-! ### hwSet changes `regs` alone -/

@[simp] theorem hwSet_pending (s : State) (st ev : Nat) (m : Word) : (hwSet s st ev m).pending = s.pending := rfl
@[simp] theorem hwSet_latch (s : State) (st ev : Nat) (m : Word) : (hwSet s st ev m).latch = s.latch := rfl
@[simp] theorem hwSet_mem (s : State) (st ev : Nat) (m : Word) : (hwSet s st ev m).mem = s.mem := rfl
@[simp] theorem hwSet_poison (s : State) (st ev : Nat) (m : Word) : (hwSet s st ev m).poison = s.poison := rfl
@[simp] theorem hwSet_cores (s : State) (st ev : Nat) (m : Word) : (hwSet s st ev m).cores = s.cores := rfl
@[simp] theorem hwSet_clusters (s : State) (st ev : Nat) (m : Word) : (hwSet s st ev m).clusters = s.clusters := rfl
@[simp] theorem hwSet_dies (s : State) (st ev : Nat) (m : Word) : (hwSet s st ev m).dies = s.dies := rfl
@[simp] theorem hwSet_clk (s : State) (st ev : Nat) (m : Word) : (hwSet s st ev m).clk = s.clk := rfl
@[simp] theorem hwSet_chans (s : State) (st ev : Nat) (m : Word) : (hwSet s st ev m).chans = s.chans := rfl
@[simp] theorem hwSet_lines (s : State) (st ev : Nat) (m : Word) : (hwSet s st ev m).lines = s.lines := rfl
@[simp] theorem hwSet_credits (s : State) (st ev : Nat) (m : Word) : (hwSet s st ev m).credits = s.credits := rfl
@[simp] theorem hwSet_firn (s : State) (st ev : Nat) (m : Word) : (hwSet s st ev m).firn = s.firn := rfl
@[simp] theorem hwSet_rime (s : State) (st ev : Nat) (m : Word) : (hwSet s st ev m).rime = s.rime := rfl
@[simp] theorem hwSet_serac (s : State) (st ev : Nat) (m : Word) : (hwSet s st ev m).serac = s.serac := rfl
@[simp] theorem hwSet_baseth (s : State) (st ev : Nat) (m : Word) : (hwSet s st ev m).baseth = s.baseth := rfl
@[simp] theorem hwSet_host (s : State) (st ev : Nat) (m : Word) : (hwSet s st ev m).host = s.host := rfl
@[simp] theorem hwSet_sec (s : State) (st ev : Nat) (m : Word) : (hwSet s st ev m).sec = s.sec := rfl
@[simp] theorem hwSet_snow (s : State) (st ev : Nat) (m : Word) : (hwSet s st ev m).snow = s.snow := rfl
@[simp] theorem hwSet_streams (s : State) (st ev : Nat) (m : Word) : (hwSet s st ev m).streams = s.streams := rfl
@[simp] theorem hwSet_gateway (s : State) (st ev : Nat) (m : Word) : (hwSet s st ev m).gateway = s.gateway := rfl
@[simp] theorem hwSet_cornice (s : State) (st ev : Nat) (m : Word) : (hwSet s st ev m).cornice = s.cornice := rfl
@[simp] theorem hwSet_power (s : State) (st ev : Nat) (m : Word) : (hwSet s st ev m).power = s.power := rfl
@[simp] theorem hwSet_pins (s : State) (st ev : Nat) (m : Word) : (hwSet s st ev m).pins = s.pins := rfl
@[simp] theorem hwSet_reports (s : State) (st ev : Nat) (m : Word) : (hwSet s st ev m).reports = s.reports := rfl
@[simp] theorem hwSet_out (s : State) (st ev : Nat) (m : Word) : (hwSet s st ev m).out = s.out := rfl
@[simp] theorem hwSet_free (s : State) (st ev : Nat) (m : Word) : (hwSet s st ev m).free = s.free := rfl

/-! ### hwSetBit changes `regs` alone -/

@[simp] theorem hwSetBit_pending (s : State) (st ev i : Nat) : (hwSetBit s st ev i).pending = s.pending := rfl
@[simp] theorem hwSetBit_latch (s : State) (st ev i : Nat) : (hwSetBit s st ev i).latch = s.latch := rfl
@[simp] theorem hwSetBit_mem (s : State) (st ev i : Nat) : (hwSetBit s st ev i).mem = s.mem := rfl
@[simp] theorem hwSetBit_poison (s : State) (st ev i : Nat) : (hwSetBit s st ev i).poison = s.poison := rfl
@[simp] theorem hwSetBit_cores (s : State) (st ev i : Nat) : (hwSetBit s st ev i).cores = s.cores := rfl
@[simp] theorem hwSetBit_clusters (s : State) (st ev i : Nat) : (hwSetBit s st ev i).clusters = s.clusters := rfl
@[simp] theorem hwSetBit_dies (s : State) (st ev i : Nat) : (hwSetBit s st ev i).dies = s.dies := rfl
@[simp] theorem hwSetBit_clk (s : State) (st ev i : Nat) : (hwSetBit s st ev i).clk = s.clk := rfl
@[simp] theorem hwSetBit_chans (s : State) (st ev i : Nat) : (hwSetBit s st ev i).chans = s.chans := rfl
@[simp] theorem hwSetBit_lines (s : State) (st ev i : Nat) : (hwSetBit s st ev i).lines = s.lines := rfl
@[simp] theorem hwSetBit_credits (s : State) (st ev i : Nat) : (hwSetBit s st ev i).credits = s.credits := rfl
@[simp] theorem hwSetBit_firn (s : State) (st ev i : Nat) : (hwSetBit s st ev i).firn = s.firn := rfl
@[simp] theorem hwSetBit_rime (s : State) (st ev i : Nat) : (hwSetBit s st ev i).rime = s.rime := rfl
@[simp] theorem hwSetBit_serac (s : State) (st ev i : Nat) : (hwSetBit s st ev i).serac = s.serac := rfl
@[simp] theorem hwSetBit_baseth (s : State) (st ev i : Nat) : (hwSetBit s st ev i).baseth = s.baseth := rfl
@[simp] theorem hwSetBit_host (s : State) (st ev i : Nat) : (hwSetBit s st ev i).host = s.host := rfl
@[simp] theorem hwSetBit_sec (s : State) (st ev i : Nat) : (hwSetBit s st ev i).sec = s.sec := rfl
@[simp] theorem hwSetBit_snow (s : State) (st ev i : Nat) : (hwSetBit s st ev i).snow = s.snow := rfl
@[simp] theorem hwSetBit_streams (s : State) (st ev i : Nat) : (hwSetBit s st ev i).streams = s.streams := rfl
@[simp] theorem hwSetBit_gateway (s : State) (st ev i : Nat) : (hwSetBit s st ev i).gateway = s.gateway := rfl
@[simp] theorem hwSetBit_cornice (s : State) (st ev i : Nat) : (hwSetBit s st ev i).cornice = s.cornice := rfl
@[simp] theorem hwSetBit_power (s : State) (st ev i : Nat) : (hwSetBit s st ev i).power = s.power := rfl
@[simp] theorem hwSetBit_pins (s : State) (st ev i : Nat) : (hwSetBit s st ev i).pins = s.pins := rfl
@[simp] theorem hwSetBit_reports (s : State) (st ev i : Nat) : (hwSetBit s st ev i).reports = s.reports := rfl
@[simp] theorem hwSetBit_out (s : State) (st ev i : Nat) : (hwSetBit s st ev i).out = s.out := rfl
@[simp] theorem hwSetBit_free (s : State) (st ev i : Nat) : (hwSetBit s st ev i).free = s.free := rfl

/-! ### emit changes `out` alone -/

@[simp] theorem emit_pending (s : State) (o : Out) : (emit s o).pending = s.pending := rfl
@[simp] theorem emit_regs (s : State) (o : Out) : (emit s o).regs = s.regs := rfl
@[simp] theorem emit_latch (s : State) (o : Out) : (emit s o).latch = s.latch := rfl
@[simp] theorem emit_mem (s : State) (o : Out) : (emit s o).mem = s.mem := rfl
@[simp] theorem emit_poison (s : State) (o : Out) : (emit s o).poison = s.poison := rfl
@[simp] theorem emit_cores (s : State) (o : Out) : (emit s o).cores = s.cores := rfl
@[simp] theorem emit_clusters (s : State) (o : Out) : (emit s o).clusters = s.clusters := rfl
@[simp] theorem emit_dies (s : State) (o : Out) : (emit s o).dies = s.dies := rfl
@[simp] theorem emit_clk (s : State) (o : Out) : (emit s o).clk = s.clk := rfl
@[simp] theorem emit_chans (s : State) (o : Out) : (emit s o).chans = s.chans := rfl
@[simp] theorem emit_lines (s : State) (o : Out) : (emit s o).lines = s.lines := rfl
@[simp] theorem emit_credits (s : State) (o : Out) : (emit s o).credits = s.credits := rfl
@[simp] theorem emit_firn (s : State) (o : Out) : (emit s o).firn = s.firn := rfl
@[simp] theorem emit_rime (s : State) (o : Out) : (emit s o).rime = s.rime := rfl
@[simp] theorem emit_serac (s : State) (o : Out) : (emit s o).serac = s.serac := rfl
@[simp] theorem emit_baseth (s : State) (o : Out) : (emit s o).baseth = s.baseth := rfl
@[simp] theorem emit_host (s : State) (o : Out) : (emit s o).host = s.host := rfl
@[simp] theorem emit_sec (s : State) (o : Out) : (emit s o).sec = s.sec := rfl
@[simp] theorem emit_snow (s : State) (o : Out) : (emit s o).snow = s.snow := rfl
@[simp] theorem emit_streams (s : State) (o : Out) : (emit s o).streams = s.streams := rfl
@[simp] theorem emit_gateway (s : State) (o : Out) : (emit s o).gateway = s.gateway := rfl
@[simp] theorem emit_cornice (s : State) (o : Out) : (emit s o).cornice = s.cornice := rfl
@[simp] theorem emit_power (s : State) (o : Out) : (emit s o).power = s.power := rfl
@[simp] theorem emit_pins (s : State) (o : Out) : (emit s o).pins = s.pins := rfl
@[simp] theorem emit_reports (s : State) (o : Out) : (emit s o).reports = s.reports := rfl
@[simp] theorem emit_free (s : State) (o : Out) : (emit s o).free = s.free := rfl

/-! ### notify changes `out` alone -/

@[simp] theorem notify_pending (s : State) (x y : String) (n : Nat) : (notify s x y n).pending = s.pending := rfl
@[simp] theorem notify_regs (s : State) (x y : String) (n : Nat) : (notify s x y n).regs = s.regs := rfl
@[simp] theorem notify_latch (s : State) (x y : String) (n : Nat) : (notify s x y n).latch = s.latch := rfl
@[simp] theorem notify_mem (s : State) (x y : String) (n : Nat) : (notify s x y n).mem = s.mem := rfl
@[simp] theorem notify_poison (s : State) (x y : String) (n : Nat) : (notify s x y n).poison = s.poison := rfl
@[simp] theorem notify_cores (s : State) (x y : String) (n : Nat) : (notify s x y n).cores = s.cores := rfl
@[simp] theorem notify_clusters (s : State) (x y : String) (n : Nat) : (notify s x y n).clusters = s.clusters := rfl
@[simp] theorem notify_dies (s : State) (x y : String) (n : Nat) : (notify s x y n).dies = s.dies := rfl
@[simp] theorem notify_clk (s : State) (x y : String) (n : Nat) : (notify s x y n).clk = s.clk := rfl
@[simp] theorem notify_chans (s : State) (x y : String) (n : Nat) : (notify s x y n).chans = s.chans := rfl
@[simp] theorem notify_lines (s : State) (x y : String) (n : Nat) : (notify s x y n).lines = s.lines := rfl
@[simp] theorem notify_credits (s : State) (x y : String) (n : Nat) : (notify s x y n).credits = s.credits := rfl
@[simp] theorem notify_firn (s : State) (x y : String) (n : Nat) : (notify s x y n).firn = s.firn := rfl
@[simp] theorem notify_rime (s : State) (x y : String) (n : Nat) : (notify s x y n).rime = s.rime := rfl
@[simp] theorem notify_serac (s : State) (x y : String) (n : Nat) : (notify s x y n).serac = s.serac := rfl
@[simp] theorem notify_baseth (s : State) (x y : String) (n : Nat) : (notify s x y n).baseth = s.baseth := rfl
@[simp] theorem notify_host (s : State) (x y : String) (n : Nat) : (notify s x y n).host = s.host := rfl
@[simp] theorem notify_sec (s : State) (x y : String) (n : Nat) : (notify s x y n).sec = s.sec := rfl
@[simp] theorem notify_snow (s : State) (x y : String) (n : Nat) : (notify s x y n).snow = s.snow := rfl
@[simp] theorem notify_streams (s : State) (x y : String) (n : Nat) : (notify s x y n).streams = s.streams := rfl
@[simp] theorem notify_gateway (s : State) (x y : String) (n : Nat) : (notify s x y n).gateway = s.gateway := rfl
@[simp] theorem notify_cornice (s : State) (x y : String) (n : Nat) : (notify s x y n).cornice = s.cornice := rfl
@[simp] theorem notify_power (s : State) (x y : String) (n : Nat) : (notify s x y n).power = s.power := rfl
@[simp] theorem notify_pins (s : State) (x y : String) (n : Nat) : (notify s x y n).pins = s.pins := rfl
@[simp] theorem notify_reports (s : State) (x y : String) (n : Nat) : (notify s x y n).reports = s.reports := rfl
@[simp] theorem notify_free (s : State) (x y : String) (n : Nat) : (notify s x y n).free = s.free := rfl

/-! ### drawn changes `free` alone -/

@[simp] theorem drawn_pending (s : State) : (drawn s).pending = s.pending := rfl
@[simp] theorem drawn_regs (s : State) : (drawn s).regs = s.regs := rfl
@[simp] theorem drawn_latch (s : State) : (drawn s).latch = s.latch := rfl
@[simp] theorem drawn_mem (s : State) : (drawn s).mem = s.mem := rfl
@[simp] theorem drawn_poison (s : State) : (drawn s).poison = s.poison := rfl
@[simp] theorem drawn_cores (s : State) : (drawn s).cores = s.cores := rfl
@[simp] theorem drawn_clusters (s : State) : (drawn s).clusters = s.clusters := rfl
@[simp] theorem drawn_dies (s : State) : (drawn s).dies = s.dies := rfl
@[simp] theorem drawn_clk (s : State) : (drawn s).clk = s.clk := rfl
@[simp] theorem drawn_chans (s : State) : (drawn s).chans = s.chans := rfl
@[simp] theorem drawn_lines (s : State) : (drawn s).lines = s.lines := rfl
@[simp] theorem drawn_credits (s : State) : (drawn s).credits = s.credits := rfl
@[simp] theorem drawn_firn (s : State) : (drawn s).firn = s.firn := rfl
@[simp] theorem drawn_rime (s : State) : (drawn s).rime = s.rime := rfl
@[simp] theorem drawn_serac (s : State) : (drawn s).serac = s.serac := rfl
@[simp] theorem drawn_baseth (s : State) : (drawn s).baseth = s.baseth := rfl
@[simp] theorem drawn_host (s : State) : (drawn s).host = s.host := rfl
@[simp] theorem drawn_sec (s : State) : (drawn s).sec = s.sec := rfl
@[simp] theorem drawn_snow (s : State) : (drawn s).snow = s.snow := rfl
@[simp] theorem drawn_streams (s : State) : (drawn s).streams = s.streams := rfl
@[simp] theorem drawn_gateway (s : State) : (drawn s).gateway = s.gateway := rfl
@[simp] theorem drawn_cornice (s : State) : (drawn s).cornice = s.cornice := rfl
@[simp] theorem drawn_power (s : State) : (drawn s).power = s.power := rfl
@[simp] theorem drawn_pins (s : State) : (drawn s).pins = s.pins := rfl
@[simp] theorem drawn_reports (s : State) : (drawn s).reports = s.reports := rfl
@[simp] theorem drawn_out (s : State) : (drawn s).out = s.out := rfl

/-! ### setCore changes `cores` alone -/

@[simp] theorem setCore_pending (s : State) (n : Nat) (c : CoreSt) : (setCore s n c).pending = s.pending := rfl
@[simp] theorem setCore_regs (s : State) (n : Nat) (c : CoreSt) : (setCore s n c).regs = s.regs := rfl
@[simp] theorem setCore_latch (s : State) (n : Nat) (c : CoreSt) : (setCore s n c).latch = s.latch := rfl
@[simp] theorem setCore_mem (s : State) (n : Nat) (c : CoreSt) : (setCore s n c).mem = s.mem := rfl
@[simp] theorem setCore_poison (s : State) (n : Nat) (c : CoreSt) : (setCore s n c).poison = s.poison := rfl
@[simp] theorem setCore_clusters (s : State) (n : Nat) (c : CoreSt) : (setCore s n c).clusters = s.clusters := rfl
@[simp] theorem setCore_dies (s : State) (n : Nat) (c : CoreSt) : (setCore s n c).dies = s.dies := rfl
@[simp] theorem setCore_clk (s : State) (n : Nat) (c : CoreSt) : (setCore s n c).clk = s.clk := rfl
@[simp] theorem setCore_chans (s : State) (n : Nat) (c : CoreSt) : (setCore s n c).chans = s.chans := rfl
@[simp] theorem setCore_lines (s : State) (n : Nat) (c : CoreSt) : (setCore s n c).lines = s.lines := rfl
@[simp] theorem setCore_credits (s : State) (n : Nat) (c : CoreSt) : (setCore s n c).credits = s.credits := rfl
@[simp] theorem setCore_firn (s : State) (n : Nat) (c : CoreSt) : (setCore s n c).firn = s.firn := rfl
@[simp] theorem setCore_rime (s : State) (n : Nat) (c : CoreSt) : (setCore s n c).rime = s.rime := rfl
@[simp] theorem setCore_serac (s : State) (n : Nat) (c : CoreSt) : (setCore s n c).serac = s.serac := rfl
@[simp] theorem setCore_baseth (s : State) (n : Nat) (c : CoreSt) : (setCore s n c).baseth = s.baseth := rfl
@[simp] theorem setCore_host (s : State) (n : Nat) (c : CoreSt) : (setCore s n c).host = s.host := rfl
@[simp] theorem setCore_sec (s : State) (n : Nat) (c : CoreSt) : (setCore s n c).sec = s.sec := rfl
@[simp] theorem setCore_snow (s : State) (n : Nat) (c : CoreSt) : (setCore s n c).snow = s.snow := rfl
@[simp] theorem setCore_streams (s : State) (n : Nat) (c : CoreSt) : (setCore s n c).streams = s.streams := rfl
@[simp] theorem setCore_gateway (s : State) (n : Nat) (c : CoreSt) : (setCore s n c).gateway = s.gateway := rfl
@[simp] theorem setCore_cornice (s : State) (n : Nat) (c : CoreSt) : (setCore s n c).cornice = s.cornice := rfl
@[simp] theorem setCore_power (s : State) (n : Nat) (c : CoreSt) : (setCore s n c).power = s.power := rfl
@[simp] theorem setCore_pins (s : State) (n : Nat) (c : CoreSt) : (setCore s n c).pins = s.pins := rfl
@[simp] theorem setCore_reports (s : State) (n : Nat) (c : CoreSt) : (setCore s n c).reports = s.reports := rfl
@[simp] theorem setCore_out (s : State) (n : Nat) (c : CoreSt) : (setCore s n c).out = s.out := rfl
@[simp] theorem setCore_free (s : State) (n : Nat) (c : CoreSt) : (setCore s n c).free = s.free := rfl

/-! ### updCore changes `cores` alone -/

@[simp] theorem updCore_pending (s : State) (n : Nat) (f : CoreSt → CoreSt) : (updCore s n f).pending = s.pending := rfl
@[simp] theorem updCore_regs (s : State) (n : Nat) (f : CoreSt → CoreSt) : (updCore s n f).regs = s.regs := rfl
@[simp] theorem updCore_latch (s : State) (n : Nat) (f : CoreSt → CoreSt) : (updCore s n f).latch = s.latch := rfl
@[simp] theorem updCore_mem (s : State) (n : Nat) (f : CoreSt → CoreSt) : (updCore s n f).mem = s.mem := rfl
@[simp] theorem updCore_poison (s : State) (n : Nat) (f : CoreSt → CoreSt) : (updCore s n f).poison = s.poison := rfl
@[simp] theorem updCore_clusters (s : State) (n : Nat) (f : CoreSt → CoreSt) : (updCore s n f).clusters = s.clusters := rfl
@[simp] theorem updCore_dies (s : State) (n : Nat) (f : CoreSt → CoreSt) : (updCore s n f).dies = s.dies := rfl
@[simp] theorem updCore_clk (s : State) (n : Nat) (f : CoreSt → CoreSt) : (updCore s n f).clk = s.clk := rfl
@[simp] theorem updCore_chans (s : State) (n : Nat) (f : CoreSt → CoreSt) : (updCore s n f).chans = s.chans := rfl
@[simp] theorem updCore_lines (s : State) (n : Nat) (f : CoreSt → CoreSt) : (updCore s n f).lines = s.lines := rfl
@[simp] theorem updCore_credits (s : State) (n : Nat) (f : CoreSt → CoreSt) : (updCore s n f).credits = s.credits := rfl
@[simp] theorem updCore_firn (s : State) (n : Nat) (f : CoreSt → CoreSt) : (updCore s n f).firn = s.firn := rfl
@[simp] theorem updCore_rime (s : State) (n : Nat) (f : CoreSt → CoreSt) : (updCore s n f).rime = s.rime := rfl
@[simp] theorem updCore_serac (s : State) (n : Nat) (f : CoreSt → CoreSt) : (updCore s n f).serac = s.serac := rfl
@[simp] theorem updCore_baseth (s : State) (n : Nat) (f : CoreSt → CoreSt) : (updCore s n f).baseth = s.baseth := rfl
@[simp] theorem updCore_host (s : State) (n : Nat) (f : CoreSt → CoreSt) : (updCore s n f).host = s.host := rfl
@[simp] theorem updCore_sec (s : State) (n : Nat) (f : CoreSt → CoreSt) : (updCore s n f).sec = s.sec := rfl
@[simp] theorem updCore_snow (s : State) (n : Nat) (f : CoreSt → CoreSt) : (updCore s n f).snow = s.snow := rfl
@[simp] theorem updCore_streams (s : State) (n : Nat) (f : CoreSt → CoreSt) : (updCore s n f).streams = s.streams := rfl
@[simp] theorem updCore_gateway (s : State) (n : Nat) (f : CoreSt → CoreSt) : (updCore s n f).gateway = s.gateway := rfl
@[simp] theorem updCore_cornice (s : State) (n : Nat) (f : CoreSt → CoreSt) : (updCore s n f).cornice = s.cornice := rfl
@[simp] theorem updCore_power (s : State) (n : Nat) (f : CoreSt → CoreSt) : (updCore s n f).power = s.power := rfl
@[simp] theorem updCore_pins (s : State) (n : Nat) (f : CoreSt → CoreSt) : (updCore s n f).pins = s.pins := rfl
@[simp] theorem updCore_reports (s : State) (n : Nat) (f : CoreSt → CoreSt) : (updCore s n f).reports = s.reports := rfl
@[simp] theorem updCore_out (s : State) (n : Nat) (f : CoreSt → CoreSt) : (updCore s n f).out = s.out := rfl
@[simp] theorem updCore_free (s : State) (n : Nat) (f : CoreSt → CoreSt) : (updCore s n f).free = s.free := rfl

/-! ### setClu changes `clusters` alone -/

@[simp] theorem setClu_pending (s : State) (n : Nat) (c : ClusterSt) : (setClu s n c).pending = s.pending := rfl
@[simp] theorem setClu_regs (s : State) (n : Nat) (c : ClusterSt) : (setClu s n c).regs = s.regs := rfl
@[simp] theorem setClu_latch (s : State) (n : Nat) (c : ClusterSt) : (setClu s n c).latch = s.latch := rfl
@[simp] theorem setClu_mem (s : State) (n : Nat) (c : ClusterSt) : (setClu s n c).mem = s.mem := rfl
@[simp] theorem setClu_poison (s : State) (n : Nat) (c : ClusterSt) : (setClu s n c).poison = s.poison := rfl
@[simp] theorem setClu_cores (s : State) (n : Nat) (c : ClusterSt) : (setClu s n c).cores = s.cores := rfl
@[simp] theorem setClu_dies (s : State) (n : Nat) (c : ClusterSt) : (setClu s n c).dies = s.dies := rfl
@[simp] theorem setClu_clk (s : State) (n : Nat) (c : ClusterSt) : (setClu s n c).clk = s.clk := rfl
@[simp] theorem setClu_chans (s : State) (n : Nat) (c : ClusterSt) : (setClu s n c).chans = s.chans := rfl
@[simp] theorem setClu_lines (s : State) (n : Nat) (c : ClusterSt) : (setClu s n c).lines = s.lines := rfl
@[simp] theorem setClu_credits (s : State) (n : Nat) (c : ClusterSt) : (setClu s n c).credits = s.credits := rfl
@[simp] theorem setClu_firn (s : State) (n : Nat) (c : ClusterSt) : (setClu s n c).firn = s.firn := rfl
@[simp] theorem setClu_rime (s : State) (n : Nat) (c : ClusterSt) : (setClu s n c).rime = s.rime := rfl
@[simp] theorem setClu_serac (s : State) (n : Nat) (c : ClusterSt) : (setClu s n c).serac = s.serac := rfl
@[simp] theorem setClu_baseth (s : State) (n : Nat) (c : ClusterSt) : (setClu s n c).baseth = s.baseth := rfl
@[simp] theorem setClu_host (s : State) (n : Nat) (c : ClusterSt) : (setClu s n c).host = s.host := rfl
@[simp] theorem setClu_sec (s : State) (n : Nat) (c : ClusterSt) : (setClu s n c).sec = s.sec := rfl
@[simp] theorem setClu_snow (s : State) (n : Nat) (c : ClusterSt) : (setClu s n c).snow = s.snow := rfl
@[simp] theorem setClu_streams (s : State) (n : Nat) (c : ClusterSt) : (setClu s n c).streams = s.streams := rfl
@[simp] theorem setClu_gateway (s : State) (n : Nat) (c : ClusterSt) : (setClu s n c).gateway = s.gateway := rfl
@[simp] theorem setClu_cornice (s : State) (n : Nat) (c : ClusterSt) : (setClu s n c).cornice = s.cornice := rfl
@[simp] theorem setClu_power (s : State) (n : Nat) (c : ClusterSt) : (setClu s n c).power = s.power := rfl
@[simp] theorem setClu_pins (s : State) (n : Nat) (c : ClusterSt) : (setClu s n c).pins = s.pins := rfl
@[simp] theorem setClu_reports (s : State) (n : Nat) (c : ClusterSt) : (setClu s n c).reports = s.reports := rfl
@[simp] theorem setClu_out (s : State) (n : Nat) (c : ClusterSt) : (setClu s n c).out = s.out := rfl
@[simp] theorem setClu_free (s : State) (n : Nat) (c : ClusterSt) : (setClu s n c).free = s.free := rfl

/-! ### setDie changes `dies` alone -/

@[simp] theorem setDie_pending (s : State) (n : Nat) (c : DieSt) : (setDie s n c).pending = s.pending := rfl
@[simp] theorem setDie_regs (s : State) (n : Nat) (c : DieSt) : (setDie s n c).regs = s.regs := rfl
@[simp] theorem setDie_latch (s : State) (n : Nat) (c : DieSt) : (setDie s n c).latch = s.latch := rfl
@[simp] theorem setDie_mem (s : State) (n : Nat) (c : DieSt) : (setDie s n c).mem = s.mem := rfl
@[simp] theorem setDie_poison (s : State) (n : Nat) (c : DieSt) : (setDie s n c).poison = s.poison := rfl
@[simp] theorem setDie_cores (s : State) (n : Nat) (c : DieSt) : (setDie s n c).cores = s.cores := rfl
@[simp] theorem setDie_clusters (s : State) (n : Nat) (c : DieSt) : (setDie s n c).clusters = s.clusters := rfl
@[simp] theorem setDie_clk (s : State) (n : Nat) (c : DieSt) : (setDie s n c).clk = s.clk := rfl
@[simp] theorem setDie_chans (s : State) (n : Nat) (c : DieSt) : (setDie s n c).chans = s.chans := rfl
@[simp] theorem setDie_lines (s : State) (n : Nat) (c : DieSt) : (setDie s n c).lines = s.lines := rfl
@[simp] theorem setDie_credits (s : State) (n : Nat) (c : DieSt) : (setDie s n c).credits = s.credits := rfl
@[simp] theorem setDie_firn (s : State) (n : Nat) (c : DieSt) : (setDie s n c).firn = s.firn := rfl
@[simp] theorem setDie_rime (s : State) (n : Nat) (c : DieSt) : (setDie s n c).rime = s.rime := rfl
@[simp] theorem setDie_serac (s : State) (n : Nat) (c : DieSt) : (setDie s n c).serac = s.serac := rfl
@[simp] theorem setDie_baseth (s : State) (n : Nat) (c : DieSt) : (setDie s n c).baseth = s.baseth := rfl
@[simp] theorem setDie_host (s : State) (n : Nat) (c : DieSt) : (setDie s n c).host = s.host := rfl
@[simp] theorem setDie_sec (s : State) (n : Nat) (c : DieSt) : (setDie s n c).sec = s.sec := rfl
@[simp] theorem setDie_snow (s : State) (n : Nat) (c : DieSt) : (setDie s n c).snow = s.snow := rfl
@[simp] theorem setDie_streams (s : State) (n : Nat) (c : DieSt) : (setDie s n c).streams = s.streams := rfl
@[simp] theorem setDie_gateway (s : State) (n : Nat) (c : DieSt) : (setDie s n c).gateway = s.gateway := rfl
@[simp] theorem setDie_cornice (s : State) (n : Nat) (c : DieSt) : (setDie s n c).cornice = s.cornice := rfl
@[simp] theorem setDie_power (s : State) (n : Nat) (c : DieSt) : (setDie s n c).power = s.power := rfl
@[simp] theorem setDie_pins (s : State) (n : Nat) (c : DieSt) : (setDie s n c).pins = s.pins := rfl
@[simp] theorem setDie_reports (s : State) (n : Nat) (c : DieSt) : (setDie s n c).reports = s.reports := rfl
@[simp] theorem setDie_out (s : State) (n : Nat) (c : DieSt) : (setDie s n c).out = s.out := rfl
@[simp] theorem setDie_free (s : State) (n : Nat) (c : DieSt) : (setDie s n c).free = s.free := rfl

/-! ### setByte changes `mem` alone -/

@[simp] theorem setByte_pending (s : State) (a : Nat) (b : Byte) : (setByte s a b).pending = s.pending := rfl
@[simp] theorem setByte_regs (s : State) (a : Nat) (b : Byte) : (setByte s a b).regs = s.regs := rfl
@[simp] theorem setByte_latch (s : State) (a : Nat) (b : Byte) : (setByte s a b).latch = s.latch := rfl
@[simp] theorem setByte_poison (s : State) (a : Nat) (b : Byte) : (setByte s a b).poison = s.poison := rfl
@[simp] theorem setByte_cores (s : State) (a : Nat) (b : Byte) : (setByte s a b).cores = s.cores := rfl
@[simp] theorem setByte_clusters (s : State) (a : Nat) (b : Byte) : (setByte s a b).clusters = s.clusters := rfl
@[simp] theorem setByte_dies (s : State) (a : Nat) (b : Byte) : (setByte s a b).dies = s.dies := rfl
@[simp] theorem setByte_clk (s : State) (a : Nat) (b : Byte) : (setByte s a b).clk = s.clk := rfl
@[simp] theorem setByte_chans (s : State) (a : Nat) (b : Byte) : (setByte s a b).chans = s.chans := rfl
@[simp] theorem setByte_lines (s : State) (a : Nat) (b : Byte) : (setByte s a b).lines = s.lines := rfl
@[simp] theorem setByte_credits (s : State) (a : Nat) (b : Byte) : (setByte s a b).credits = s.credits := rfl
@[simp] theorem setByte_firn (s : State) (a : Nat) (b : Byte) : (setByte s a b).firn = s.firn := rfl
@[simp] theorem setByte_rime (s : State) (a : Nat) (b : Byte) : (setByte s a b).rime = s.rime := rfl
@[simp] theorem setByte_serac (s : State) (a : Nat) (b : Byte) : (setByte s a b).serac = s.serac := rfl
@[simp] theorem setByte_baseth (s : State) (a : Nat) (b : Byte) : (setByte s a b).baseth = s.baseth := rfl
@[simp] theorem setByte_host (s : State) (a : Nat) (b : Byte) : (setByte s a b).host = s.host := rfl
@[simp] theorem setByte_sec (s : State) (a : Nat) (b : Byte) : (setByte s a b).sec = s.sec := rfl
@[simp] theorem setByte_snow (s : State) (a : Nat) (b : Byte) : (setByte s a b).snow = s.snow := rfl
@[simp] theorem setByte_streams (s : State) (a : Nat) (b : Byte) : (setByte s a b).streams = s.streams := rfl
@[simp] theorem setByte_gateway (s : State) (a : Nat) (b : Byte) : (setByte s a b).gateway = s.gateway := rfl
@[simp] theorem setByte_cornice (s : State) (a : Nat) (b : Byte) : (setByte s a b).cornice = s.cornice := rfl
@[simp] theorem setByte_power (s : State) (a : Nat) (b : Byte) : (setByte s a b).power = s.power := rfl
@[simp] theorem setByte_pins (s : State) (a : Nat) (b : Byte) : (setByte s a b).pins = s.pins := rfl
@[simp] theorem setByte_reports (s : State) (a : Nat) (b : Byte) : (setByte s a b).reports = s.reports := rfl
@[simp] theorem setByte_out (s : State) (a : Nat) (b : Byte) : (setByte s a b).out = s.out := rfl
@[simp] theorem setByte_free (s : State) (a : Nat) (b : Byte) : (setByte s a b).free = s.free := rfl

/-! ### setPoison changes `poison` alone -/

@[simp] theorem setPoison_pending (s : State) (a : Nat) (p : Bool) : (setPoison s a p).pending = s.pending := rfl
@[simp] theorem setPoison_regs (s : State) (a : Nat) (p : Bool) : (setPoison s a p).regs = s.regs := rfl
@[simp] theorem setPoison_latch (s : State) (a : Nat) (p : Bool) : (setPoison s a p).latch = s.latch := rfl
@[simp] theorem setPoison_mem (s : State) (a : Nat) (p : Bool) : (setPoison s a p).mem = s.mem := rfl
@[simp] theorem setPoison_cores (s : State) (a : Nat) (p : Bool) : (setPoison s a p).cores = s.cores := rfl
@[simp] theorem setPoison_clusters (s : State) (a : Nat) (p : Bool) : (setPoison s a p).clusters = s.clusters := rfl
@[simp] theorem setPoison_dies (s : State) (a : Nat) (p : Bool) : (setPoison s a p).dies = s.dies := rfl
@[simp] theorem setPoison_clk (s : State) (a : Nat) (p : Bool) : (setPoison s a p).clk = s.clk := rfl
@[simp] theorem setPoison_chans (s : State) (a : Nat) (p : Bool) : (setPoison s a p).chans = s.chans := rfl
@[simp] theorem setPoison_lines (s : State) (a : Nat) (p : Bool) : (setPoison s a p).lines = s.lines := rfl
@[simp] theorem setPoison_credits (s : State) (a : Nat) (p : Bool) : (setPoison s a p).credits = s.credits := rfl
@[simp] theorem setPoison_firn (s : State) (a : Nat) (p : Bool) : (setPoison s a p).firn = s.firn := rfl
@[simp] theorem setPoison_rime (s : State) (a : Nat) (p : Bool) : (setPoison s a p).rime = s.rime := rfl
@[simp] theorem setPoison_serac (s : State) (a : Nat) (p : Bool) : (setPoison s a p).serac = s.serac := rfl
@[simp] theorem setPoison_baseth (s : State) (a : Nat) (p : Bool) : (setPoison s a p).baseth = s.baseth := rfl
@[simp] theorem setPoison_host (s : State) (a : Nat) (p : Bool) : (setPoison s a p).host = s.host := rfl
@[simp] theorem setPoison_sec (s : State) (a : Nat) (p : Bool) : (setPoison s a p).sec = s.sec := rfl
@[simp] theorem setPoison_snow (s : State) (a : Nat) (p : Bool) : (setPoison s a p).snow = s.snow := rfl
@[simp] theorem setPoison_streams (s : State) (a : Nat) (p : Bool) : (setPoison s a p).streams = s.streams := rfl
@[simp] theorem setPoison_gateway (s : State) (a : Nat) (p : Bool) : (setPoison s a p).gateway = s.gateway := rfl
@[simp] theorem setPoison_cornice (s : State) (a : Nat) (p : Bool) : (setPoison s a p).cornice = s.cornice := rfl
@[simp] theorem setPoison_power (s : State) (a : Nat) (p : Bool) : (setPoison s a p).power = s.power := rfl
@[simp] theorem setPoison_pins (s : State) (a : Nat) (p : Bool) : (setPoison s a p).pins = s.pins := rfl
@[simp] theorem setPoison_reports (s : State) (a : Nat) (p : Bool) : (setPoison s a p).reports = s.reports := rfl
@[simp] theorem setPoison_out (s : State) (a : Nat) (p : Bool) : (setPoison s a p).out = s.out := rfl
@[simp] theorem setPoison_free (s : State) (a : Nat) (p : Bool) : (setPoison s a p).free = s.free := rfl

end Sys2Proof.Machine
end

