-- ==== Sys2Proof/Laws/Tab.lean ====
section
/-! SUPPORT. What a table or a set of numbers holds after an update, and that its order is kept. -/

namespace Sys2Proof

/-! ### Reading after an update -/

/-- Reading a table after one key is set. -/
theorem Tab.get_set {α : Type} (d v : α) (t : Tab α) (k j : Nat) :
    Tab.get d (Tab.set t k v) j = if j = k then v else Tab.get d t j := by
  induction t with
  | nil => simp [Tab.set, Tab.get, eq_comm]
  | cons e t ih =>
    obtain ⟨k', v'⟩ := e
    rcases Nat.lt_trichotomy k k' with h1 | h1 | h1
    · rw [Tab.set, if_pos h1]
      by_cases hj : k = j
      · subst hj; simp [Tab.get]
      · simp only [Tab.get, if_neg hj, if_neg (Ne.symm hj)]
    · subst h1
      rw [Tab.set, if_neg (Nat.lt_irrefl _), if_pos rfl]
      by_cases hj : k = j
      · subst hj; simp [Tab.get]
      · simp only [Tab.get, if_neg hj, if_neg (Ne.symm hj)]
    · rw [Tab.set, if_neg (by omega), if_neg (by omega)]
      by_cases hj : k' = j
      · subst hj
        have : k' ≠ k := by omega
        simp [Tab.get, this]
      · simp only [Tab.get, if_neg hj, ih]

@[simp] theorem Tab.get_set_same {α : Type} (d v : α) (t : Tab α) (k : Nat) : Tab.get d (Tab.set t k v) k = v := by
  simp [Tab.get_set]

theorem Tab.get_set_ne {α : Type} (d v : α) (t : Tab α) {k j : Nat} (h : j ≠ k) :
    Tab.get d (Tab.set t k v) j = Tab.get d t j := by
  simp [Tab.get_set, h]

/-- Looking a key up after one key is set. -/
theorem Tab.find_set {α : Type} (v : α) (t : Tab α) (k j : Nat) :
    Tab.find (Tab.set t k v) j = if j = k then some v else Tab.find t j := by
  induction t with
  | nil => simp [Tab.set, Tab.find, eq_comm]
  | cons e t ih =>
    obtain ⟨k', v'⟩ := e
    rcases Nat.lt_trichotomy k k' with h1 | h1 | h1
    · rw [Tab.set, if_pos h1]
      by_cases hj : k = j
      · subst hj; simp [Tab.find]
      · simp only [Tab.find, if_neg hj, if_neg (Ne.symm hj)]
    · subst h1
      rw [Tab.set, if_neg (Nat.lt_irrefl _), if_pos rfl]
      by_cases hj : k = j
      · subst hj; simp [Tab.find]
      · simp only [Tab.find, if_neg hj, if_neg (Ne.symm hj)]
    · rw [Tab.set, if_neg (by omega), if_neg (by omega)]
      by_cases hj : k' = j
      · subst hj
        have : k' ≠ k := by omega
        simp [Tab.find, this]
      · simp only [Tab.find, if_neg hj, ih]

@[simp] theorem Tab.find_set_same {α : Type} (v : α) (t : Tab α) (k : Nat) : Tab.find (Tab.set t k v) k = some v := by
  simp [Tab.find_set]

/-- Reading a table after one key is removed. -/
theorem Tab.get_del {α : Type} (d : α) (t : Tab α) (k j : Nat) :
    Tab.get d (Tab.del t k) j = if j = k then d else Tab.get d t j := by
  induction t with
  | nil => simp [Tab.del, Tab.get]
  | cons e t ih =>
    obtain ⟨k', v'⟩ := e
    simp only [Tab.del, List.filter_cons] at ih ⊢
    by_cases hk : k' = k
    · subst hk
      simp only [bne_self_eq_false, Bool.false_eq_true, if_false, ih, Tab.get]
      split_ifs <;> simp_all
    · simp only [bne_iff_ne, ne_eq, hk, not_false_eq_true, if_true, Tab.get, ih]
      split_ifs <;> simp_all

/-- Looking a key up after one key is removed. -/
theorem Tab.find_del {α : Type} (t : Tab α) (k j : Nat) :
    Tab.find (Tab.del t k) j = if j = k then none else Tab.find t j := by
  induction t with
  | nil => simp [Tab.del, Tab.find]
  | cons e t ih =>
    obtain ⟨k', v'⟩ := e
    simp only [Tab.del, List.filter_cons] at ih ⊢
    by_cases hk : k' = k
    · subst hk
      simp only [bne_self_eq_false, Bool.false_eq_true, if_false, ih, Tab.find]
      split_ifs <;> simp_all
    · simp only [bne_iff_ne, ne_eq, hk, not_false_eq_true, if_true, Tab.find, ih]
      split_ifs <;> simp_all

/-! ### Ascending order -/

/-- A table is in order exactly where its keys ascend pairwise. -/
theorem Tab.sorted_iff {α : Type} (t : Tab α) : Tab.sorted t = true ↔ t.Pairwise (fun a b => a.1 < b.1) := by
  induction t with
  | nil => simp [Tab.sorted]
  | cons e t ih =>
    obtain ⟨k, v⟩ := e
    cases t with
    | nil => simp [Tab.sorted]
    | cons e' t =>
      obtain ⟨k', v'⟩ := e'
      simp only [Tab.sorted, Bool.and_eq_true, decide_eq_true_eq, ih]
      constructor
      · rintro ⟨hlt, hp⟩
        refine List.pairwise_cons.2 ⟨fun x hx => ?_, hp⟩
        rcases List.mem_cons.1 hx with rfl | hx
        · exact hlt
        · exact lt_trans hlt ((List.pairwise_cons.1 hp).1 x hx)
      · intro h
        exact ⟨(List.pairwise_cons.1 h).1 (k', v') (by simp), (List.pairwise_cons.1 h).2⟩

/-- A key of a table after one key is set is that key or was there. -/
theorem Tab.mem_set {α : Type} {v : α} {t : Tab α} {k : Nat} {e : Nat × α} (h : e ∈ Tab.set t k v) :
    e = (k, v) ∨ e ∈ t := by
  induction t with
  | nil => simpa [Tab.set] using h
  | cons e' t ih =>
    obtain ⟨k', v'⟩ := e'
    unfold Tab.set at h
    split_ifs at h with h1 h2
    · simpa using h
    · rcases List.mem_cons.1 h with h | h
      · exact .inl h
      · exact .inr (List.mem_cons_of_mem _ h)
    · rcases List.mem_cons.1 h with h | h
      · exact .inr (by simp [h])
      · exact (ih h).imp id (List.mem_cons_of_mem _)

/-- Setting a key keeps the order. -/
theorem Tab.sorted_set {α : Type} (v : α) {t : Tab α} (k : Nat) (h : Tab.sorted t = true) :
    Tab.sorted (Tab.set t k v) = true := by
  rw [Tab.sorted_iff] at h ⊢
  induction t with
  | nil => simp [Tab.set]
  | cons e t ih =>
    obtain ⟨k', v'⟩ := e
    obtain ⟨hlt, hp⟩ := List.pairwise_cons.1 h
    unfold Tab.set
    split_ifs with h1 h2
    · refine List.pairwise_cons.2 ⟨fun x hx => ?_, h⟩
      rcases List.mem_cons.1 hx with rfl | hx
      · exact h1
      · exact lt_trans h1 (hlt x hx)
    · subst h2
      exact List.pairwise_cons.2 ⟨hlt, hp⟩
    · refine List.pairwise_cons.2 ⟨fun x hx => ?_, ih hp⟩
      rcases Tab.mem_set hx with rfl | hx
      · simp only; omega
      · exact hlt x hx

/-- Leaving entries out keeps the order. -/
theorem Tab.sorted_filter {α : Type} {t : Tab α} (p : Nat × α → Bool) (h : Tab.sorted t = true) :
    Tab.sorted (t.filter p) = true := by
  rw [Tab.sorted_iff] at h ⊢
  exact h.filter _

/-- Removing a key keeps the order. -/
theorem Tab.sorted_del {α : Type} {t : Tab α} (k : Nat) (h : Tab.sorted t = true) : Tab.sorted (Tab.del t k) = true :=
  Tab.sorted_filter _ h

/-! ### Sets of numbers -/

/-- Members of a set after one number joins. -/
theorem NatSet.mem_ins (k j : Nat) (t : NatSet) : j ∈ NatSet.ins k t ↔ j = k ∨ j ∈ t := by
  induction t with
  | nil => simp [NatSet.ins]
  | cons x t ih =>
    unfold NatSet.ins
    split_ifs with h1 h2
    · simp
    · subst h2; simp
    · simp only [List.mem_cons, ih]; tauto

/-- Members of a set after one number leaves. -/
theorem NatSet.mem_rem (k j : Nat) (t : NatSet) : j ∈ NatSet.rem k t ↔ j ≠ k ∧ j ∈ t := by
  simp [NatSet.rem, and_comm]

/-- A number joining keeps the order. -/
theorem NatSet.pairwise_ins (k : Nat) {t : NatSet} (h : t.Pairwise (· < ·)) : (NatSet.ins k t).Pairwise (· < ·) := by
  induction t with
  | nil => simp [NatSet.ins]
  | cons x t ih =>
    obtain ⟨hlt, hp⟩ := List.pairwise_cons.1 h
    unfold NatSet.ins
    split_ifs with h1 h2
    · refine List.pairwise_cons.2 ⟨fun y hy => ?_, h⟩
      rcases List.mem_cons.1 hy with rfl | hy
      · exact h1
      · exact lt_trans h1 (hlt y hy)
    · exact h
    · refine List.pairwise_cons.2 ⟨fun y hy => ?_, ih hp⟩
      rcases (NatSet.mem_ins k y t).1 hy with rfl | hy
      · omega
      · exact hlt y hy

/-- A number leaving keeps the order. -/
theorem NatSet.pairwise_rem (k : Nat) {t : NatSet} (h : t.Pairwise (· < ·)) : (NatSet.rem k t).Pairwise (· < ·) :=
  h.filter _

/-! ### Repetition -/

/-- What holds of a state and is kept by every round holds after them all. -/
theorem forUpTo_keeps {σ : Type} (P : σ → Prop) (n : Nat) (f : Nat → σ → σ) (s : σ) (h : P s)
    (hf : ∀ i t, P t → P (f i t)) : P (forUpTo n f s) := by
  unfold forUpTo
  generalize List.range n = l
  induction l generalizing s with
  | nil => exact h
  | cons i l ih => exact ih _ (hf i s h)

/-- What holds of a state and is kept by every element's round holds after the fold. -/
theorem foldl_keeps {σ α : Type} (P : σ → Prop) (l : List α) (f : σ → α → σ) (s : σ) (h : P s)
    (hf : ∀ t a, P t → P (f t a)) : P (l.foldl f s) := by
  induction l generalizing s with
  | nil => exact h
  | cons a l ih => exact ih _ (hf s a h)

end Sys2Proof
end

