-- ==== Sys2Proof/Laws/Ops.lean ====
section
/-! SUPPORT. What the named operations over registers, units and memory do: the value an operation sets, and that every
other register, unit and byte reads as before. Memory keeps its canonical form. -/

namespace Sys2Proof.Machine

/-! ### Registers -/

theorem rd_wr (s : State) (a b : Nat) (v : Word) : rd (wr s a v) b = if b = a then v else rd s b := by
  unfold rd wr
  rw [Tab.get_set]

@[simp] theorem rd_wr_same (s : State) (a : Nat) (v : Word) : rd (wr s a v) a = v := by simp [rd_wr]

theorem rd_wr_ne (s : State) {a b : Nat} (v : Word) (h : b ≠ a) : rd (wr s a v) b = rd s b := by simp [rd_wr, h]

theorem rd_wrn (s : State) (a b n : Nat) : rd (wrn s a n) b = if b = a then BitVec.ofNat 64 n else rd s b :=
  rd_wr s a b _

theorem rdn_wrn (s : State) (a b n : Nat) : rdn (wrn s a n) b = if b = a then n % 2 ^ 64 else rdn s b := by
  unfold rdn
  rw [rd_wrn]
  split_ifs <;> simp

theorem rd_wrf (s : State) (a b hi lo x : Nat) :
    rd (wrf s a hi lo x) b = if b = a then setFld (rd s a) hi lo x else rd s b := rd_wr s a b _

theorem rd_wrb (s : State) (a b i : Nat) (v : Bool) :
    rd (wrb s a i v) b = if b = a then setBit (rd s a) i v else rd s b := rd_wr s a b _

theorem rdb_wrb (s : State) (a b i j : Nat) (v : Bool) (hi : i < 64) :
    rdb (wrb s a i v) b j = if b = a ∧ j = i then v else rdb s b j := by
  unfold rdb
  rw [rd_wrb]
  by_cases h : b = a
  · subst h; simp [bit_setBit _ _ _ _ hi]
  · simp [h]

@[simp] theorem rdb_wrb_same (s : State) (a i : Nat) (v : Bool) (hi : i < 64) : rdb (wrb s a i v) a i = v := by
  simp [rdb_wrb _ _ _ _ _ _ hi]

theorem rdf_wrf_same (s : State) (a hi lo x : Nat) (h : lo ≤ hi) (hi64 : hi < 64) :
    rdf (wrf s a hi lo x) a hi lo = x % 2 ^ (hi + 1 - lo) := by
  unfold rdf
  rw [rd_wrf, if_pos rfl, fld_setFld_same _ _ _ _ h hi64]

theorem rd_incWrap (s : State) (a b w n : Nat) :
    rd (incWrap s a w n) b = if b = a then BitVec.ofNat 64 ((rdn s a + n) % 2 ^ w) else rd s b := rd_wrn s a b _

/-- Hardware sets W1C flags: every flag of the mask reads 1, the event counter has moved on, nothing else has. -/
theorem rd_hwSet (s : State) (st ev b : Nat) (m : Word) :
    rd (hwSet s st ev m) b =
      if b = ev then BitVec.ofNat 64 ((rdn (wr s st (rd s st ||| m)) ev + popcount m) % 2 ^ 32)
      else if b = st then rd s st ||| m else rd s b := by
  unfold hwSet
  rw [rd_incWrap]
  split_ifs with h1 h2
  · rfl
  · subst h2; simp
  · simp [rd_wr, h2]

/-! ### Units -/

theorem getCore_setCore (s : State) (n m : Nat) (c : CoreSt) :
    getCore (setCore s n c) m = if m = n then c else getCore s m := Tab.get_set _ _ _ _ _

@[simp] theorem getCore_setCore_same (s : State) (n : Nat) (c : CoreSt) : getCore (setCore s n c) n = c := by
  simp [getCore_setCore]

theorem getCore_updCore (s : State) (n m : Nat) (f : CoreSt → CoreSt) :
    getCore (updCore s n f) m = if m = n then f (getCore s n) else getCore s m := getCore_setCore s n m _

@[simp] theorem getCore_updCore_same (s : State) (n : Nat) (f : CoreSt → CoreSt) :
    getCore (updCore s n f) n = f (getCore s n) := by simp [getCore_updCore]

theorem getClu_setClu (s : State) (n m : Nat) (c : ClusterSt) :
    getClu (setClu s n c) m = if m = n then c else getClu s m := Tab.get_set _ _ _ _ _

@[simp] theorem getClu_setClu_same (s : State) (n : Nat) (c : ClusterSt) : getClu (setClu s n c) n = c := by
  simp [getClu_setClu]

theorem getDie_setDie (s : State) (n m : Nat) (c : DieSt) :
    getDie (setDie s n c) m = if m = n then c else getDie s m := Tab.get_set _ _ _ _ _

@[simp] theorem getDie_setDie_same (s : State) (n : Nat) (c : DieSt) : getDie (setDie s n c) n = c := by
  simp [getDie_setDie]

@[simp] theorem getCore_wr (s : State) (a n : Nat) (v : Word) : getCore (wr s a v) n = getCore s n := rfl
@[simp] theorem getCore_wrn (s : State) (a x n : Nat) : getCore (wrn s a x) n = getCore s n := rfl
@[simp] theorem getCore_wrf (s : State) (a hi lo x n : Nat) : getCore (wrf s a hi lo x) n = getCore s n := rfl
@[simp] theorem getCore_wrb (s : State) (a i n : Nat) (b : Bool) : getCore (wrb s a i b) n = getCore s n := rfl
@[simp] theorem rd_updCore (s : State) (n a : Nat) (f : CoreSt → CoreSt) : rd (updCore s n f) a = rd s a := rfl
@[simp] theorem rd_setCore (s : State) (n a : Nat) (c : CoreSt) : rd (setCore s n c) a = rd s a := rfl
@[simp] theorem rd_setClu (s : State) (n a : Nat) (c : ClusterSt) : rd (setClu s n c) a = rd s a := rfl
@[simp] theorem rd_setDie (s : State) (n a : Nat) (c : DieSt) : rd (setDie s n c) a = rd s a := rfl
@[simp] theorem rd_emit (s : State) (a : Nat) (o : Out) : rd (emit s o) a = rd s a := rfl
@[simp] theorem rd_notify (s : State) (a : Nat) (x y : String) (n : Nat) : rd (notify s x y n) a = rd s a := rfl
@[simp] theorem rd_drawn (s : State) (a : Nat) : rd (drawn s) a = rd s a := rfl

/-! ### Memory -/

theorem memByte_memSet (m : List Host.Cell) (a x : Nat) (b : Byte) :
    memByte (memSet m a b) x = if x = a then b else memByte m x := by
  unfold memByte memSet
  split_ifs with h1 h2 h2
  · subst h1 h2; simp [Tab.get_del]
  · simp [Tab.get_del, h2]
  · subst h2; simp
  · simp [Tab.get_set, h2]

/-- Writing a byte keeps the canonical form. -/
theorem memSet_wf {m : List Host.Cell} (a : Nat) (b : Byte) (h : Memory.wf m = true) :
    Memory.wf (memSet m a b) = true := by
  unfold Memory.wf memSet at *
  rw [Bool.and_eq_true, List.all_eq_true] at *
  obtain ⟨hs, hz⟩ := h
  split_ifs with hb
  · refine ⟨Tab.sorted_del _ hs, fun e he => hz e (List.mem_of_mem_filter he)⟩
  · refine ⟨Tab.sorted_set _ _ hs, fun e he => ?_⟩
    rcases Tab.mem_set he with rfl | he
    · simpa using hb
    · exact hz e he

/-- Writing bytes keeps the canonical form. -/
theorem memSetList_wf {m : List Host.Cell} (a : Nat) (bs : List Byte) (h : Memory.wf m = true) :
    Memory.wf (memSetList m a bs) = true := by
  induction bs generalizing m a with
  | nil => exact h
  | cons b bs ih => exact ih _ (memSet_wf _ _ h)

/-- Leaving bytes out keeps the canonical form. -/
theorem memFilter_wf {m : List Host.Cell} (p : Host.Cell → Bool) (h : Memory.wf m = true) :
    Memory.wf (m.filter p) = true := by
  unfold Memory.wf at *
  rw [Bool.and_eq_true, List.all_eq_true] at *
  exact ⟨Tab.sorted_filter _ h.1, fun e he => h.2 e (List.mem_of_mem_filter he)⟩

/-- A run of bytes written is read back, and every byte outside the run reads as before. -/
theorem memByte_memSetList (m : List Host.Cell) (a x : Nat) (bs : List Byte) :
    memByte (memSetList m a bs) x =
      if a ≤ x ∧ x < a + bs.length then bs.getD (x - a) 0 else memByte m x := by
  induction bs generalizing m a with
  | nil => simp [memSetList]
  | cons b bs ih =>
    rw [memSetList, ih, memByte_memSet]
    rcases Nat.lt_trichotomy x a with h | h | h
    · have h1 : ¬ (a + 1 ≤ x ∧ x < a + 1 + bs.length) := by omega
      have h2 : ¬ (a ≤ x ∧ x < a + (b :: bs).length) := by omega
      have h3 : x ≠ a := by omega
      simp only [if_neg h1, if_neg h2, if_neg h3]
    · subst h
      have h1 : ¬ (x + 1 ≤ x ∧ x < x + 1 + bs.length) := by omega
      simp
    · have e : x - a = (x - (a + 1)) + 1 := by omega
      by_cases hx : x < a + 1 + bs.length
      · have h1 : a + 1 ≤ x ∧ x < a + 1 + bs.length := by omega
        have h2 : a ≤ x ∧ x < a + (b :: bs).length := by simp; omega
        rw [if_pos h1, if_pos h2, e, List.getD_cons_succ]
      · have h1 : ¬ (a + 1 ≤ x ∧ x < a + 1 + bs.length) := by omega
        have h2 : ¬ (a ≤ x ∧ x < a + (b :: bs).length) := by simp; omega
        have h3 : x ≠ a := by omega
        rw [if_neg h1, if_neg h2, if_neg h3]

theorem getByte_setByte (s : State) (a x : Nat) (b : Byte) :
    getByte (setByte s a b) x = if x = a then b else getByte s x := memByte_memSet _ _ _ _

@[simp] theorem bytesLE_length (n x : Nat) : (bytesLE n x).length = n := by simp [bytesLE]

theorem bytesLE_getD (n x i : Nat) (h : i < n) : (bytesLE n x).getD i 0 = BitVec.ofNat 8 (x / 2 ^ (8 * i)) := by
  simp [bytesLE, h]

/-- A byte after a word is written. -/
theorem getByte_setWord (s : State) (a x : Nat) (w : PWord) :
    getByte (setWord s a w) x =
      if a ≤ x ∧ x < a + 8 then byteOf w.v (x - a) else getByte s x := by
  show memByte (memSetList s.mem a (bytesLE 8 w.v.toNat)) x = _
  rw [memByte_memSetList, bytesLE_length]
  split_ifs with h
  · rw [bytesLE_getD _ _ _ (by omega)]; rfl
  · rfl

/-- The bytes of a number, put together again. -/
theorem ofBytesLE_bytes (n x : Nat) : ofBytesLE ((List.range n).map (fun i => BitVec.ofNat 8 (x / 2 ^ (8 * i))))
    = x % 2 ^ (8 * n) := by
  induction n generalizing x with
  | zero => simp [ofBytesLE, Nat.mod_one]
  | succ n ih =>
    rw [List.range_succ_eq_map, List.map_cons, List.map_map, ofBytesLE]
    have : ((fun i => BitVec.ofNat 8 (x / 2 ^ (8 * i))) ∘ Nat.succ)
        = (fun i => BitVec.ofNat 8 (x / 2 ^ 8 / 2 ^ (8 * i))) := by
      funext i
      simp only [Function.comp, Nat.succ_eq_add_one]
      rw [Nat.div_div_eq_div_mul, ← Nat.pow_add]
      ring_nf
    rw [this, ih]
    simp only [Nat.mul_zero, Nat.pow_zero, Nat.div_one, BitVec.toNat_ofNat]
    have e : 2 ^ (8 * (n + 1)) = 2 ^ 8 * 2 ^ (8 * n) := by rw [← Nat.pow_add]; ring_nf
    rw [e, Nat.mod_mul]
    norm_num

/-- A word written is read back. -/
@[simp] theorem getWord_setWord_same (s : State) (a : Nat) (w : PWord) :
    (getWord (setWord s a w) a).v = w.v := by
  unfold getWord
  have h : (List.range 8).map (fun i => getByte (setWord s a w) (a + i))
      = (List.range 8).map (fun i => BitVec.ofNat 8 (w.v.toNat / 2 ^ (8 * i))) := by
    apply List.map_congr_left
    intro i hi
    have : i < 8 := List.mem_range.1 hi
    rw [getByte_setWord, if_pos (by omega)]
    simp [byteOf]
  rw [h, ofBytesLE_bytes]
  apply BitVec.eq_of_toNat_eq
  have := w.v.isLt
  simp only [BitVec.toNat_ofNat]
  omega

@[simp] theorem getCore_setWord (s : State) (a n : Nat) (w : PWord) : getCore (setWord s a w) n = getCore s n := rfl
@[simp] theorem rd_setWord (s : State) (a b : Nat) (w : PWord) : rd (setWord s a w) b = rd s b := rfl

/-- Writing a word keeps the memory's canonical form. -/
theorem setWord_wf {s : State} (a : Nat) (w : PWord) (h : Memory.wf s.mem = true) :
    Memory.wf (setWord s a w).mem = true := memSetList_wf _ _ h

end Sys2Proof.Machine
end

