-- ==== Sys2Proof/Tests/Slice0.lean ====
section
/-! SUPPORT. Tests of the model: ill-formed terms the check refuses, single commands on small states, and for each
statement of Obligations.lean with hypotheses concrete states and operands that meet them. -/

open Sys2Proof Sys2Proof.Machine

namespace Sys2Proof.Tests

set_option Elab.async false

/-! ### Small states -/

/-- The reset state with some registers set. -/
def st (l : List (Nat × Word)) : State :=
  { State.reset with regs := l.foldl (fun t e => Tab.set t e.1 e.2) [] }

/-- The registers that memory accesses and rings look at: the watermark at its reset value, no enclave, every Rime
processor ready, no pseudo-channel of die 0 retired. -/
def readyRegs : Tab Word :=
  [(0x8000, 0x10010000000), (0x8100, 0), (0x8110, 0), (0x8120, 0), (0x8130, 0), (0x8140, 0), (0x8150, 0), (0x8160, 0),
    (0x8170, 0), (0x100000, 1), (0x110000, 1), (0x120000, 1), (0x130000, 1), (0x140000, 1), (0x150000, 1),
    (0x160000, 1), (0x170000, 1), (0x100010008, 0), (0x100010018, 0), (0x100010020, 0), (0x100020008, 0),
    (0x100020018, 0), (0x100020020, 0)]

/-- A device that is ready: clocks run, every processor is ready, some registers set. -/
def up (l : List (Nat × Word)) : State :=
  { State.reset with
    regs := l.foldl (fun t e => Tab.set t e.1 e.2) readyRegs
    power := { boot := .ready }
    clk := { locked := true, wasLocked := true } }

/-- The registers of `readyRegs` are these. -/
theorem test_readyRegs : readyRegs.map (·.1) = Reg.MEM_SECURE_WM :: ((List.range 8).map Reg.ENCL_A ++
    (List.range 8).map Reg.RIME_STATUS ++
    (List.range 2).flatMap (fun k => [Reg.MEM_STATUS k, Reg.MEM_PCH_RETIRED k, Reg.MEM_PCH_REBUILT k])) := by decide

/-- A device whose core `n` runs, holding `c`. -/
def runs (n : Nat) (c : CoreSt) (l : List (Nat × Word)) : State :=
  { up ((Reg.CORE_STATUS n, 1) :: l) with cores := [(n, c)] }

/-- Words stored one after another from an address. -/
def withWords (s : State) (a : Nat) (ws : List Word) : State := setWords s a (ws.map (fun w => ⟨w, false⟩))

/-- Die 0's DRAM is whole, in Standard mode, and no enclave stands below 0x10020000000; the watermark is not above its reset value. -/
def die0Whole (s : State) : Bool :=
  rdf s (Reg.MEM_STATUS 0) 5 4 != 1 && rd s (Reg.MEM_PCH_REBUILT 0) == 0 && rd s (Reg.MEM_PCH_REBUILT 1) == 0 &&
    rd s (Reg.MEM_PCH_RETIRED 0) == 0 && rd s (Reg.MEM_PCH_RETIRED 1) == 0 &&
    (List.range 8).all (fun n => !rdb s (Reg.ENCL_A n) 51 || decide (0x10020000000 ≤ rdf s (Reg.ENCL_A n) 47 12 * 4096)) &&
    decide (watermark s ≤ 0x10010000000)

theorem members_whole {s : State} (h : die0Whole s = true) :
    members s 0 = (List.range 64).map (fun i => (i % 2, i / 2)) := by
  simp only [die0Whole, Bool.and_eq_true, beq_iff_eq] at h
  obtain ⟨⟨⟨⟨⟨⟨-, h0⟩, h1⟩, -⟩, -⟩, -⟩, -⟩ := h
  simp only [members, Nat.mul_zero, Nat.zero_add]
  refine List.filter_eq_self.mpr fun m hm => ?_
  obtain ⟨i, -, rfl⟩ := List.mem_map.mp hm
  rcases Nat.mod_two_eq_zero_or_one i with hi | hi <;> simp [rdb, hi, h0, h1, bit]

theorem absent_whole {s : State} (h : die0Whole s = true) {off : Nat} (ho : off < 0x800000000) :
    absentAt s 0 off = none := by
  have hm := members_whole h
  simp only [die0Whole, Bool.and_eq_true, beq_iff_eq, bne_iff_ne] at h
  obtain ⟨⟨⟨⟨⟨⟨hs, -⟩, -⟩, h0⟩, h1⟩, -⟩, -⟩ := h
  have hs : strong s 0 = false := by simpa [strong] using hs
  have hu : ¬ usable s 0 ≤ off := by simp only [usable, hs, hm]; simp; omega
  have hf : (pchsOf s 0 off).find? (retiredPch s) = none := by
    refine List.find?_eq_none.mpr fun m hp => ?_
    have : m ∈ members s 0 := by
      simp only [pchsOf, hs, Bool.false_eq_true, if_false, Option.mem_toList] at hp
      exact List.mem_of_getElem? hp
    rw [hm] at this
    obtain ⟨i, -, rfl⟩ := List.mem_map.mp this
    rcases Nat.mod_two_eq_zero_or_one i with hi | hi <;> simp [retiredPch, rdb, hi, h0, h1, bit]
  simp only [absentAt, hu, if_false, hf]

theorem refused_whole {s : State} (h : die0Whole s = true) (who : Requester) {a : Nat} (ha : 0x10010000000 ≤ a)
    (hb : a < 0x10020000000) : refusedBy s who a = false := by
  simp only [die0Whole, Bool.and_eq_true, decide_eq_true_eq] at h
  obtain ⟨⟨-, he⟩, hw⟩ := h
  have hn : enclaveAt s a = none := by
    refine List.find?_eq_none.mpr fun n hn => ?_
    have := List.all_eq_true.mp he n hn
    simp only [Bool.or_eq_true, Bool.not_eq_true', decide_eq_true_eq] at this
    rcases this with h | h
    · simp [h]
    · simp only [Bool.and_eq_true, decide_eq_true_eq]
      omega
  have hsec : secureAddr s a = false := by
    simp only [secureAddr, Bool.and_eq_false_iff, decide_eq_false_iff_not]
    omega
  simp [refusedBy, hn, hsec]

/-- Every requester reaches the DRAM of die 0 above the watermark and below every enclave. -/
theorem reach_whole {s : State} {who : Requester} {a n : Nat} (h : die0Whole s = true) (h8 : a % 8 = 0)
    (hlo : 0x10010000000 ≤ a) (hhi : a + 8 * n ≤ 0x10020000000) : Reach s who a n := by
  refine ⟨h8, fun k hk => ⟨0, a + 8 * k - 0x10000000000, ?_, absent_whole h (by omega), refused_whole h who (by omega) (by omega)⟩⟩
  have h1 : (a + 8 * k - 0x10000000000) / 0x800000000 = 0 := by omega
  have h2 : (a + 8 * k - 0x10000000000) % 0x800000000 = a + 8 * k - 0x10000000000 := by omega
  rw [placeOf, if_neg (by omega), if_neg (by omega), if_neg (by omega), if_pos (by omega), h1, h2]

/-- `RingOpen` without a log ring, computed. -/
def ringOpenB (s : State) (e : Ent) (r : RingRec) : Bool :=
  serving s 0 && ringOf s e.fn e.prio == some r && !pairStopped s e.fn e.prio && !major2 s e.fn &&
    die0Whole s && r.cqBase % 8 == 0 && decide (0x10010000000 ≤ r.cqBase) &&
    decide (r.cqBase + 8 * (8 * 2 ^ r.cqLog2) ≤ 0x10020000000) && Tab.find s.host.dirty e.fn == none &&
    s.rime.logCfg == none

theorem ringOpen_of {s : State} {e : Ent} {r : RingRec} (h : ringOpenB s e r = true) : RingOpen s e r := by
  simp only [ringOpenB, Bool.and_eq_true, beq_iff_eq, Bool.not_eq_true', decide_eq_true_eq] at h
  obtain ⟨⟨⟨⟨⟨⟨⟨⟨⟨h1, h2⟩, h3⟩, h4⟩, h5⟩, h6⟩, h7⟩, h8⟩, h9⟩, h10⟩ := h
  exact ⟨h1, h2, h3, h4, reach_whole h5 h6 h7 h8, h9, fun c hc => by simp [h10] at hc⟩

/-! ### Well-formedness: each check refuses an ill-formed term -/

/-- A flit of zeros. -/
def flit : Flit := ⟨0, 0, false, false, 0, 0, 0, 0, 0, false, false, false, 0, [], 0, true⟩

/-- A frame of zeros. -/
def frame : EthFrame := ⟨0, 0, 0, 0, 0, 0, [], false, false⟩

/-- Commands of which one operand is out of range, part 1. -/
theorem test_wf_refuses1 : ([
    .registerWrite (.engine 136) 0 64 0, .registerWrite .serac 0 16 0, .w1cClear (.engine 136) 0 0 0,
    .rcRead (.engine 136) 0 0, .reg64LowRead (.engine 136) 0, .cdivWrite 4 0, .cclkRestart 4, .dramRetrainDone 4,
    .errInject (.engine 136) .core 0 0, .errInject .serac .core 128 0, .coreStart 128, .coreAbort 128,
    .semaphoreWrite (.engine 136) (.core 0 0) 0, .semaphoreWrite .serac (.core 0 64) 0, .bundleDispatch 136 .none,
    .engineIssue 136 .front .none, .nop 136, .li 136 0 0, .li 0 32 0, .lui 136 0 0, .lui 0 32 0, .add 136 0 0 0 0 0,
    .add 0 32 0 0 0 0, .add 0 0 32 0 0 0, .add 0 0 0 32 0 0, .add 0 0 0 0 16 0, .sub 136 0 0 0 0 0,
    .sub 0 32 0 0 0 0, .sub 0 0 32 0 0 0, .sub 0 0 0 32 0 0, .sub 0 0 0 0 16 0, .and 136 0 0 0 0 0,
    .and 0 32 0 0 0 0, .and 0 0 32 0 0 0, .and 0 0 0 32 0 0, .and 0 0 0 0 16 0, .or 136 0 0 0 0 0, .or 0 32 0 0 0 0,
    .or 0 0 32 0 0 0, .or 0 0 0 32 0 0, .or 0 0 0 0 16 0, .xor 136 0 0 0 0 0, .xor 0 32 0 0 0 0, .xor 0 0 32 0 0 0,
    .xor 0 0 0 32 0 0, .xor 0 0 0 0 16 0, .shl 136 0 0 0 0 0, .shl 0 32 0 0 0 0, .shl 0 0 32 0 0 0,
    .shl 0 0 0 32 0 0] : List Instr).all (fun i => !i.wf) = true := by decide

/-- Commands of which one operand is out of range, part 2. -/
theorem test_wf_refuses2 : ([
    .shl 0 0 0 0 16 0, .shr 136 0 0 0 0 0, .shr 0 32 0 0 0 0, .shr 0 0 32 0 0 0, .shr 0 0 0 32 0 0,
    .shr 0 0 0 0 16 0, .sar 136 0 0 0 0 0, .sar 0 32 0 0 0 0, .sar 0 0 32 0 0 0, .sar 0 0 0 32 0 0,
    .sar 0 0 0 0 16 0, .mul 136 0 0 0, .mul 0 32 0 0, .mul 0 0 32 0, .mul 0 0 0 32, .min 136 0 0 0, .min 0 32 0 0,
    .min 0 0 32 0, .min 0 0 0 32, .max 136 0 0 0, .max 0 32 0 0, .max 0 0 32 0, .max 0 0 0 32, .cmp 136 0 0 0 0,
    .cmp 0 32 0 0 0, .cmp 0 0 32 0 0, .cmp 0 0 0 32 0, .cmp 0 0 0 0 16, .mova 136 0 0, .mova 0 32 0, .mova 0 0 32,
    .movs 136 0 0, .movs 0 32 0, .movs 0 0 32, .adda 136 0 0 0 0 0, .adda 0 32 0 0 0 0, .adda 0 0 32 0 0 0,
    .adda 0 0 0 32 0 0, .adda 0 0 0 0 16 0, .ld 136 0 0 0, .ld 0 32 0 0, .ld 0 0 32 0, .st 136 0 0 0, .st 0 32 0 0,
    .st 0 0 32 0, .br 136 0, .brnz 136 0 0, .brnz 0 32 0, .brz 136 0 0,
    .brz 0 32 0] : List Instr).all (fun i => !i.wf) = true := by decide

/-- Commands of which one operand is out of range, part 3. -/
theorem test_wf_refuses3 : ([
    .loop 136 0 0, .loop 0 32 0, .rdcyc 136 0, .rdcyc 0 32, .rdtime 136 0, .rdtime 0 32, .sset 136 0 0, .sset 0 32 0,
    .sread 136 0 0, .sread 0 32 0, .swait 136 .front 0, .swaitG 136 .front 0, .semaphoreGrant 136 .front,
    .ssig 136 .front 0, .barCore 136, .barCl 136 0, .barrierRelease 16 0, .barrierRelease 0 16, .checkpoint 136,
    .checkpointGap 128, .halt 136, .haltDrained 136, .coreBudgetExpiry 128, .mcfg 136 0, .mcfg 0 32, .mscale 136 0 0,
    .mscale 0 32 0, .mscale 0 0 32, .mzero 136 0, .mzero 0 32, .mmac 136 0 0 0 0, .mmac 0 32 0 0 0, .mmac 0 0 32 0 0,
    .mmac 0 0 0 32 0, .mmac 0 0 0 0 32, .mld 136 0 0, .mld 0 32 0, .mld 0 0 32, .mout 136 0 0 0 0, .mout 0 32 0 0 0,
    .mout 0 0 32 0 0, .mout 0 0 0 16 0, .vld 136 0 0 0, .vld 0 32 0 0, .vld 0 0 32 0, .vst 136 0 0 0, .vst 0 32 0 0,
    .vst 0 0 32 0, .vldg 136 0 0 0, .vldg 0 32 0 0] : List Instr).all (fun i => !i.wf) = true := by decide

/-- Commands of which one operand is out of range, part 4. -/
theorem test_wf_refuses4 : ([
    .vldg 0 0 32 0, .vldg 0 0 0 32, .vbcast 136 0 0 0, .vbcast 0 32 0 0, .vbcast 0 0 32 0, .vbcast 0 0 0 16,
    .vadd 136 0 0 0 0, .vadd 0 32 0 0 0, .vadd 0 0 32 0 0, .vadd 0 0 0 32 0, .vadd 0 0 0 0 16, .vsub 136 0 0 0 0,
    .vsub 0 32 0 0 0, .vsub 0 0 32 0 0, .vsub 0 0 0 32 0, .vsub 0 0 0 0 16, .vmul 136 0 0 0 0, .vmul 0 32 0 0 0,
    .vmul 0 0 32 0 0, .vmul 0 0 0 32 0, .vmul 0 0 0 0 16, .vmin 136 0 0 0 0, .vmin 0 32 0 0 0, .vmin 0 0 32 0 0,
    .vmin 0 0 0 32 0, .vmin 0 0 0 0 16, .vmax 136 0 0 0 0, .vmax 0 32 0 0 0, .vmax 0 0 32 0 0, .vmax 0 0 0 32 0,
    .vmax 0 0 0 0 16, .vfma 136 0 0 0 0 0, .vfma 0 32 0 0 0 0, .vfma 0 0 32 0 0 0, .vfma 0 0 0 32 0 0,
    .vfma 0 0 0 0 32 0, .vfma 0 0 0 0 0 16, .vabs 136 0 0 0, .vabs 0 32 0 0, .vabs 0 0 32 0, .vabs 0 0 0 16,
    .vneg 136 0 0 0, .vneg 0 32 0 0, .vneg 0 0 32 0, .vneg 0 0 0 16, .vcmp 136 0 0 0 0 0, .vcmp 0 32 0 0 0 0,
    .vcmp 0 0 32 0 0 0, .vcmp 0 0 0 32 0 0,
    .vcmp 0 0 0 0 16 0] : List Instr).all (fun i => !i.wf) = true := by decide

/-- Commands of which one operand is out of range, part 5. -/
theorem test_wf_refuses5 : ([
    .vsel 136 0 0 0 0 0, .vsel 0 32 0 0 0 0, .vsel 0 0 32 0 0 0, .vsel 0 0 0 32 0 0, .vsel 0 0 0 0 32 0,
    .vsel 0 0 0 0 0 16, .vshuf 136 0 0 0 0, .vshuf 0 32 0 0 0, .vshuf 0 0 32 0 0, .vshuf 0 0 0 32 0,
    .vshuf 0 0 0 0 16, .vred 136 0 0 0 0, .vred 0 32 0 0 0, .vred 0 0 32 0 0, .vred 0 0 0 16 0, .vexp2 136 0 0 0,
    .vexp2 0 32 0 0, .vexp2 0 0 32 0, .vexp2 0 0 0 16, .vlog2 136 0 0 0, .vlog2 0 32 0 0, .vlog2 0 0 32 0,
    .vlog2 0 0 0 16, .vrcp 136 0 0 0, .vrcp 0 32 0 0, .vrcp 0 0 32 0, .vrcp 0 0 0 16, .vrsq 136 0 0 0,
    .vrsq 0 32 0 0, .vrsq 0 0 32 0, .vrsq 0 0 0 16, .vcvt 136 0 0 0 0, .vcvt 0 32 0 0 0, .vcvt 0 0 32 0 0,
    .vcvt 0 0 0 16 0, .vrope 136 0 0 0 0, .vrope 0 32 0 0 0, .vrope 0 0 32 0 0, .vrope 0 0 0 32 0, .vrope 0 0 0 0 16,
    .vtld 136 0 0 0, .vtld 0 32 0 0, .vtld 0 0 32 0, .vtst 136 0 0 0, .vtst 0 32 0 0, .vtst 0 0 32 0,
    .vmovs 136 0 0 0 0, .vmovs 0 32 0 0 0, .vmovs 0 0 32 0 0,
    .vmovs 0 0 0 16 0] : List Instr).all (fun i => !i.wf) = true := by decide

/-- Commands of which one operand is out of range, part 6. -/
theorem test_wf_refuses6 : ([
    .dmvStart 136 0 0, .dmvStart 0 32 0, .dmvStart 0 0 32, .dmvWait 136 0, .dmvWait 0 32, .dmvStop 136 0,
    .dmvStop 0 32, .syncMem 136, .wnRun 128 0, .wnRun 0 32, .wnAckWaitGrant 128, .wnHaloWaitGrant 128,
    .wnFinalHaloSettle 128, .atRun 136 0, .atRun 0 32, .atMerge 136 0, .atMerge 0 32, .tcMissServe 4 0,
    .tcMissServe 0 281474976710656, .firnStep ⟨17, 0, 0⟩ 0 0, .seqRelease ⟨17, 0, 0⟩ 0,
    .prefixLookup ⟨17, 0, 0⟩ 0 0 0, .prefixInsert ⟨17, 0, 0⟩ 0 0 0, .firnQuery ⟨17, 0, 0⟩ 0,
    .memoryRead (.engine 136) ⟨0, 0⟩ 0 .clean .clean, .memoryRead .serac ⟨8, 0⟩ 0 .clean .clean,
    .memoryWrite (.engine 136) ⟨0, 0⟩ 0 0 false, .memoryWrite .serac ⟨8, 0⟩ 0 0 false, .storeFill (.engine 136) 0,
    .storeFill .serac 4, .storeFillDone 4, .mlogClear (.dram 8) 0 none, .mvStart (.engine 136) (.hub 0) 0,
    .mvStart .serac (.hub 32) 0, .mvStop (.engine 136) (.hub 0), .mvStop .serac (.hub 32),
    .mvDescriptorFetch (.hub 32), .mvTrigger (.hub 32), .mvRequest 64, .mvCoreDone 128 0, .mvCoreDone 0 8,
    .mvReadbackDone (.hub 32), .driftShareWrite (.engine 136) 0 0 0, .driftShareWrite .serac 24 0 0,
    .driftShareWrite .serac 0 8 0, .sqDoorbell 17 0 0, .sqDoorbell 0 4 0, .cqHeadWrite 17 0 0, .cqHeadWrite 0 4 0,
    .instanceOpen 17] : List Instr).all (fun i => !i.wf) = true := by decide

/-- Commands of which one operand is out of range, part 7. -/
theorem test_wf_refuses7 : ([
    .msixSend 17 0, .msixSend 0 32, .jobRun ⟨17, 0, 0⟩ false 0 0 [], .jobCancel ⟨17, 0, 0⟩ 0,
    .modelLoad ⟨17, 0, 0⟩ 0 0, .modelUnload ⟨17, 0, 0⟩ 0, .longSuspend ⟨17, 0, 0⟩ 0, .longResume ⟨17, 0, 0⟩ 0,
    .longCancel ⟨17, 0, 0⟩ 0, .longOpPoint ⟨17, 0, 0⟩ false, .memFill ⟨17, 0, 0⟩ 0 0 0 0, .selftest ⟨17, 0, 0⟩ 0 0 0,
    .fwStage ⟨17, 0, 0⟩ 0 0 0, .tenantScrub ⟨17, 0, 0⟩, .kvCompact ⟨17, 0, 0⟩ 0 0, .queryCounts ⟨17, 0, 0⟩,
    .wdtKick (.engine 136) 0 0, .wdtKick .serac 8 0, .watchdogExpiry 8 0, .rimeRestartComplete 8,
    .logEntry 8 0 0 0 0, .logEntry 0 4 0 0 0, .logEntry 0 0 256 0 0, .seracHeartbeat 2 false, .lockstepWindow 2 0 0,
    .seracInputLatch 2 [], .twinCompare 16 0, .twinCompare 0 4, .twinAbsentTimeout 16 0, .twinAbsentTimeout 0 4,
    .taskWindowJudge 32, .injectionTimeout 10, .railSample 16 0, .dieRestartDone 4 false, .flitReceive 8 flit [],
    .flitReceive 0 { flit with lseq := 4096 } [], .portRetrainDone 8 false, .portPeerTimeout 8, .portTrain 8 0 0 0 0,
    .portTrain 0 0 8 0 0, .fmElection [] 16 0 0 false, .fmElection [] 0 8 0 false, .fmElection [] 0 0 8 false,
    .linkMapDistribute [⟨1024, 0, true, 4⟩] 0, .returnPrepare 8 0 false 0, .returnPrepare 0 16 false 0,
    .returnAnswer 8 0 false 0, .returnCommit 8 false, .returnAbort 8,
    .bondMarkerTimeout 8] : List Instr).all (fun i => !i.wf) = true := by decide

/-- Commands of which one operand is out of range, part 8. -/
theorem test_wf_refuses8 : ([
    .returnDeadline 8, .conduitTrigger 64, .conduitMessage 64 ⟨0, 0, true, 0, 0, [], 0, []⟩,
    .conduitMessage 0 ⟨0, 0, true, 0, 0, [0], 0, []⟩, .conduitAck 64, .conduitFree 64, .apertureRead 17 0,
    .apertureWrite 17 0 0 false, .functionLevelReset 17, .instConfig ⟨32, 0⟩ 0 [], .instConfig ⟨0, 0⟩ 16 [],
    .instConfig ⟨0, 0⟩ 0 [0, 0, 0, 0, 0], .aptMap ⟨32, 0⟩ 0 0, .aptMap ⟨0, 0⟩ 64 0, .instQuiesce ⟨32, 0⟩ false,
    .instanceQuiesced 16, .instReset ⟨32, 0⟩, .instRemove ⟨32, 0⟩, .dirtyStart ⟨32, 0⟩ 0,
    .dirtyHarvest ⟨32, 0⟩ 0 0 0, .dirtyStop ⟨32, 0⟩, .countsRead ⟨32, 0⟩, .logSetup ⟨32, 0⟩ 0 0 0,
    .linkReturn ⟨32, 0⟩ 0, .conduitBind ⟨32, 0⟩ 0 [], .conduitBind ⟨0, 0⟩ 64 [], .conduitUnbind ⟨32, 0⟩ 0,
    .conduitUnbind ⟨0, 0⟩ 64, .getVersion 256, .getCapabilities 256, .negotiateAlgorithms 256, .getDigests 256,
    .getCertificate 256 0 0 0, .challenge 256 0, .getMeasurements 256 0 0, .keyExchange 256 false [],
    .finish 256 [] [], .heartbeat 256, .keyUpdate 256, .endSession 256, .getEncapsulatedRequest 256,
    .deliverEncapsulatedResponse 256 [], .tenantAssign 256 0, .tenantQuery 256, .keyLoad 256 0 0 0,
    .keyLoad 0 32 0 0, .keyErase 256 0, .keyErase 0 32, .debugAuth 256 0,
    .retireClear 256 0 0 0] : List Instr).all (fun i => !i.wf) = true := by decide

/-- Commands of which one operand is out of range, part 9. -/
theorem test_wf_refuses9 : ([
    .retireClear 0 4 0 0, .retireClear 0 0 8 0, .retireClear 0 0 0 64, .rootSet 256 0 0, .rootSet 0 4 0,
    .wmSet 256 0, .frostTrigger 256, .frostRead 256 0 0, .mgtIcecoreRead 256 0 0 0, .wcall 8, .wret 8,
    .secureInterrupt 8, .monVersion 8, .pmClaim 8, .pmRelease 8, .enclCreate 8, .enclAdd 8, .enclInit 8,
    .enclEnter 8, .enclExit 8, .enclInterruptExit 8, .enclDestroy 8, .debugAccess false 0 16 0 false,
    .clockCutRequest (.enclave 8) 0, .powerCutRequest (.enclave 8) 0, .snowIncrWrite (.engine 136) 0,
    .snowSlewWrite (.engine 136) 0, .snowStepWrite (.engine 136) 0, .relock (.engine 136),
    .snowNsRead (.engine 136) false, .cmpArm (.engine 136) 0, .cmpArm .serac 16, .cmpDisarm (.engine 136) 0,
    .cmpDisarm .serac 16, .compareFire 16, .ttqPush (.engine 136) 0, .ttqPush .serac 4, .captureEdge 8 false,
    .capInfoRead (.engine 136) 0, .capInfoRead .serac 8, .csi2FrameStart 128, .csi2Line 128 0 [] false false,
    .csi2Line 0 64 [] false false, .csi2FrameEnd 128, .ethFrameReceive 13 frame,
    .ethFrameReceive 0 { frame with vlan := 4096 }, .txQueuePoll 8, .ethFrameSent 13 0 none,
    .ethFrameSent 0 65536 none, .tsqInfoRead (.engine 136) 0] : List Instr).all (fun i => !i.wf) = true := by decide

/-- Commands of which one operand is out of range, part 10. -/
theorem test_wf_refuses10 : ([
    .tsqInfoRead .serac 13, .gateChange 13, .canFrameReceive 8 ⟨0, true, []⟩,
    .canFrameReceive 0 ⟨0, true, List.replicate 65 0⟩, .canLaunch 8, .canTransmitDone 8, .canBusOffRecovery 8,
    .vfetch 127, .vfetch 136, .vemit 127 0, .vemit 136 0, .vemit 128 32, .rfetch 127, .rfetch 136,
    .tex 127 0 0 0 0 0, .tex 136 0 0 0 0 0, .tex 128 32 0 0 0 0, .tex 128 0 32 0 0 0, .tex 128 0 0 32 0 0,
    .tex 128 0 0 0 32 0, .pxld 127 0 0, .pxld 136 0 0, .pxld 128 32 0, .pxst 127 0 0, .pxst 136 0 0, .pxst 128 32 0,
    .pxdone 127, .pxdone 136, .ray 127 0 0, .ray 136 0 0, .ray 128 32 0, .ray 128 0 32, .end_ 127, .end_ 136,
    .vblankStart 4, .headLineStart 4 0 false, .headLineStart 0 65536 false, .headFrameStart 4,
    .recoveryLoad ⟨32, 0⟩ 0 0, .modeSet ⟨32, 0⟩ 0 0, .idleExit 128, .junctionLimit 5 0, .fwActivate ⟨32, 0⟩ 0,
    .nvmStore ⟨32, 0⟩ 0 0 0, .nvmStore ⟨0, 0⟩ 16 0 0, .nvmRead ⟨32, 0⟩ 0 0, .nvmRead ⟨0, 0⟩ 16 0,
    .icecoreWrite ⟨32, 0⟩, .icecoreRead ⟨32, 0⟩ 0 0,
    .frostArm ⟨32, 0⟩ 0] : List Instr).all (fun i => !i.wf) = true := by decide

/-- Commands of which one operand is out of range, part 11. -/
theorem test_wf_refuses11 : ([
    .avsTargetReached 4, .avsTimeout 4, .safetyWindowOpen 32, .seracPairRejoin 2, .dpHotPlug 4 false 0,
    .dpHotPlug 0 false 5, .deskewCalibration 16 0, .deskewCalibration 0 5,
    .addressAgeing 0 4096] : List Instr).all (fun i => !i.wf) = true := by decide

/-- The records a command carries: one check of each fails. -/
theorem test_wf_records :
    World.wf (.enclave 8) = false ∧ ChanId.wf (.core 128 0) = false ∧ ChanId.wf (.core 0 8) = false ∧
    ChanId.wf (.cluster 16 0) = false ∧ ChanId.wf (.cluster 0 16) = false ∧ ChanId.wf (.hub 32) = false ∧
    Requester.wf (.engine 136) = false ∧ Requester.wf (.chan (.hub 32) false) = false ∧
    Requester.wf (.rime 8 .normal) = false ∧ Requester.wf (.rime 0 (.enclave 8)) = false ∧
    Requester.wf (.host 17) = false ∧ Label.wf ⟨8, 0⟩ = false ∧ Label.wf ⟨0, 17⟩ = false ∧
    SemId.wf (.core 128 0) = false ∧ SemId.wf (.core 0 64) = false ∧ SemId.wf (.cluster 16 0) = false ∧
    SemId.wf (.cluster 0 256) = false ∧ LogId.wf (.dram 8) = false ∧ LogId.wf (.coreStore 128) = false ∧
    LogId.wf (.instrStore 128) = false ∧ LogId.wf (.clusterStore 16) = false ∧ Ent.wf ⟨17, 0, 0⟩ = false ∧
    Ent.wf ⟨0, 4, 0⟩ = false ∧ Mbx.wf ⟨32, 0⟩ = false ∧ Level.holds .engine 640 = false ∧
    Level.holds .core 128 = false ∧ Level.holds .cluster 16 = false ∧ Level.holds .die 4 = false ∧
    Level.holds .package 1 = false := by decide

theorem test_wf_messages :
    Flit.wf { flit with lseq := 4096 } = false ∧ Flit.wf { flit with ackSeq := 4096 } = false ∧
    Flit.wf { flit with vc := 5 } = false ∧ Flit.wf { flit with kind := 8 } = false ∧
    Flit.wf { flit with conduit := 64 } = false ∧ Flit.wf { flit with dst := 1024 } = false ∧
    Flit.wf { flit with src := 1024 } = false ∧ Flit.wf { flit with payload := List.replicate 30 0 } = false ∧
    CndMsg.wf ⟨0, 9, true, 0, 0, [0], 0, []⟩ = false ∧ LinkRec.wf ⟨1024, 0, true, 4⟩ = false ∧
    LinkRec.wf ⟨0, 8, true, 4⟩ = false ∧ LinkRec.wf ⟨0, 0, true, 5⟩ = false ∧
    EthFrame.wf { frame with vlan := 4096 } = false ∧ EthFrame.wf { frame with pcp := 8 } = false ∧
    CanMsg.wf ⟨0, true, List.replicate 65 0⟩ = false := by decide

/-- Commands with their operands in range are accepted. -/
theorem test_wf_accepts :
    Instr.wf (.add 135 31 31 31 15 0) = true ∧ Instr.wf (.coreStart 127) = true ∧ Instr.wf (.end_ 128) = true ∧
    Instr.wf (.mvStart .serac (.cluster 15 15) 0) = true ∧ Instr.wf (.registerWrite .serac 0 32 0) = true ∧
    Instr.wf (.errInject .serac .engine 639 0) = true ∧ Instr.wf (.mlogClear (.dram 7) 0 none) = true ∧
    Instr.wf (.jobRun ⟨16, 3, 0⟩ true 0 0 []) = true ∧ Instr.wf (.flitReceive 7 flit []) = true := by decide

/-! ### Cores (02): hypotheses met -/

/-- Core 0 holds 3 in S1, 0 in S2, a poisoned 0 in S3, 16 in A0 and a poisoned 0 in A1. -/
def coreRegs : CoreSt :=
  { s := [(1, ⟨3, false⟩), (2, ⟨0, false⟩), (3, ⟨0, true⟩)], a := [(0, ⟨16, false⟩), (1, ⟨0, true⟩)] }

theorem witness_ScalarOperations : (31 < 32) ∧ (0 < 32) := by decide

theorem test_add_sub_wrap : (match exec (.sub 0 4 2 1 0 0) (runs 0 coreRegs []) with
    | .next t => readS t 0 4 == ⟨0xFFFFFFFFFFFFFFFD, false⟩ && readS t 0 1 == ⟨3, false⟩
    | _ => false) = true := by decide

theorem witness_ScalarMoves : (let s := runs 0 coreRegs []; (31 < 32) ∧ (15 < 16) ∧ twinned s 0 = false) := by decide

theorem witness_ScalarLoadStore :
    (let s := runs 0 coreRegs []; (readA s 0 0).p = false ∧ twinned s 0 = false) ∧
    (let s := runs 0 coreRegs [(Reg.CORE_CTL 0, 4)];
      (readA s 0 0).p = false ∧ twinned s 0 = true ∧ (readS s 0 1).p = false) := by decide

theorem test_st_wraps : (match exec (.st 0 1 0 0xFFFFFFF0) (runs 0 coreRegs []) with
    | .next t => getWord t (coreStoreBase 0) == ⟨3, false⟩
    | _ => false) = true := by decide

theorem witness_Branches : (let s := runs 0 coreRegs [];
    (readS s 0 1).p = false ∧ (readS s 0 1).v ≠ 0 ∧ (readS s 0 2).p = false ∧ (readS s 0 2).v = 0 ∧
    1 ≤ (1 : BitVec 32).toNat ∧ (2047 : BitVec 32).toNat ≤ 2047 ∧ (readS s 0 2).v.toNat % 2 ^ 32 = 0 ∧
    (readS s 0 1).v.toNat % 2 ^ 32 ≠ 0) := by decide

theorem test_branch_back : (match exec (.br 0 0xFFFFFFFF) (runs 0 coreRegs []) with
    | .next t => getPc t 0 == 2047
    | _ => false) = true := by decide

theorem witness_CoreStops : (let s := runs 0 coreRegs [];
    (readA s 0 1).p = true ∧ (readS s 0 3).p = true ∧ (1 : BitVec 32).toNat ≤ 2047 ∧ (63 : BitVec 32).toNat < 64 ∧
    (2 ≤ 2) ∧ (6 ≤ 15) ∧ (7 ≤ 7) ∧ (32 ≤ 32) ∧ (8 ≤ 8)) := by decide

/-- SSIG and SWAIT of count 1 on core semaphore 5, and SSET and SREAD of it. -/
theorem witness_Semaphores :
    (semImm 0x10005 true ∧ semImm 5 false ∧ semImm 0xFFFF01FF true) ∧
    (let s := runs 0 coreRegs [(semReg (.core 0 5), 0xFFFE)];
      twinned s 0 = false ∧ cdmDone s 0 = true ∧ semGet s (semOf 0 0x10005) + 0x10005 / 65536 ≤ 0xFFFF ∧
      (readS s 0 1).p = false ∧ semWriteOk s (.rime 4 .normal) (.core 1 63) = true) ∧
    (let s := runs 0 coreRegs [(semReg (.core 0 5), 0xFFFF)];
      cdmDone s 0 = true ∧ 0xFFFF < semGet s (semOf 0 0x10005) + 0x10005 / 65536) := by
  unfold semImm
  decide

theorem witness_SemaphoreWaits :
    (let s := runs 0 { coreRegs with hold := .sem 0x10005 true } [(semReg (.core 0 5), 1)];
      twinned s 0 = false ∧ (0x10005 : BitVec 32).toNat / 65536 ≤ semGet s (semOf 0 0x10005) ∧
      (getCore s 0).hold = .sem 0x10005 true) ∧
    (let s := runs 0 coreRegs [];
      twinned s 0 = false ∧ semGet s (semOf 0 0x10005) < (0x10005 : BitVec 32).toNat / 65536) := by decide

/-- An instruction in a queue. -/
def queued : QEntry := ⟨0x30, ⟨0, false⟩, ⟨0, false⟩, ⟨0, false⟩, 0⟩

theorem witness_Barriers :
    (let s := runs 0 coreRegs []; drained s 0 = true ∧ twinned s 0 = false) ∧
    (let s := runs 0 { coreRegs with qm := [queued] } []; drained s 0 = false) ∧
    ((0x0101 : BitVec 32).toNat < 65536 ∧ (0x0101 : BitVec 32).toNat / 16 % 16 = 0 ∧
      (0x0101 : BitVec 32).toNat / 256 ≠ 0) ∧
    barComplete [] = false ∧ barComplete [⟨0, 0, 3⟩] = false ∧ barComplete [⟨0, 0, 3⟩, ⟨1, 1, 3⟩] = true := by decide

theorem witness_BarrierRelease :
    (let s : State := { up [] with clusters := [(0, { barriers := [(1, [⟨0, 0, 1⟩])] })] }
      let l := Tab.get [] (getClu s 0).barriers 1
      barComplete l = true ∧ ∀ e ∈ l, twinned s e.core = false) ∧
    barComplete (Tab.get [] (getClu (up []) 0).barriers 1) = false := by decide

theorem witness_CheckpointsAndHalt :
    (let s := runs 0 coreRegs []; twinned s 0 = false) ∧
    (let s := runs 0 { coreRegs with gap := 65537 } [(Reg.CORE_CTL 0, 4)];
      twinned s 0 = true ∧ drained s 0 = true ∧ running s 0 = true ∧ 65537 ≤ (getCore s 0).gap) ∧
    (let s := runs 0 { coreRegs with qm := [queued] } [(Reg.CORE_CTL 0, 4)]; twinned s 0 = true ∧ drained s 0 = false) ∧
    (let s := runs 0 { coreRegs with hold := .halt } [];
      (getCore s 0).hold = .halt ∧ drained s 0 = true ∧ running s 0 = true ∧ twinned s 0 = false ∧ jobOn s 0 = none) := by
  decide

theorem witness_KernelStartAndEnd :
    (let s := up []; running s 127 = false ∧ s.serac.slice = none) ∧
    (let s := runs 127 coreRegs [(Reg.CORE_BUDGET 127, 5), (Reg.CORE_CYCLES 127, 5)];
      running s 127 = true ∧ jobOn s 127 = none ∧ rd s (Reg.CORE_BUDGET 127) ≠ 0 ∧
      (rd s (Reg.CORE_BUDGET 127)).toNat ≤ (rd s (Reg.CORE_CYCLES 127)).toNat) := by decide

/-- A running core whose instruction store begins with a bundle that holds MZERO T0 in its M slot. -/
def bundleState (q : List QEntry) : State :=
  withWords (runs 0 { coreRegs with qm := q } []) (instrStoreBase 0) [0, 0x42, 0, 0]

theorem witness_DispatchAndIssue :
    (let s := up []; mayDispatch s 0 = false) ∧
    (let s := bundleState [];
      mayDispatch s 0 = true ∧ (getCore s 0).hold = .none ∧ (getCore s 0).loops = [] ∧
      fetchBundle s 0 (getPc s 0) = [⟨0, false⟩, ⟨0x42, false⟩, ⟨0, false⟩, ⟨0, false⟩] ∧ (getCore s 0).qm.length < 16) ∧
    (let s := bundleState (List.replicate 16 queued); mayDispatch s 0 = true ∧ 16 ≤ (getCore s 0).qm.length) := by decide

theorem witness_EngineIssue :
    (let s := runs 0 { coreRegs with qm := [{ queued with slot := 0x42 }] } [];
      mayIssue s 0 .mxe = true ∧ (getCore s 0).qm = [{ queued with slot := 0x42 }] ∧
      (engRun (updCore s 0 (fun c => { c with qm := [] })) 0 .mxe { queued with slot := 0x42 }).isSome = true) ∧
    (let q : QEntry := { queued with slot := 0x0001000500000022 }
      let s := runs 0 { coreRegs with qm := [q] } []
      mayIssue s 0 .mxe = true ∧ engRun (updCore s 0 (fun c => { c with qm := [] })) 0 .mxe q = none) := by decide

/-! ### Matrix, vector, window and attention engines (03, 04, 05): hypotheses met -/

/-- Core 0 with MCFG operands in S1 (INT8 × INT8, INT32), S2 (FP32 codes, no pair of Table 03.3) and the last 8 KiB of
its store in A0. -/
def matrixState : State :=
  runs 0 { s := [(1, ⟨1 + 32 + 1024, false⟩), (2, ⟨12 + 32 * 12, false⟩)], a := [(0, ⟨0xFE000, false⟩)] } []

theorem witness_MatrixMode :
    (let s := matrixState; (readS s 0 1).p = false ∧ (readS s 0 1).v = BitVec.ofNat 64 (1 + 32 * 1 + 1024) ∧
      formatPair 1 1 true ∧ (readS s 0 2).p = false ∧ (readS s 0 2).v = BitVec.ofNat 64 (12 + 32 * 12 + 0) ∧
      ¬ formatPair 12 12 false ∧ (readA s 0 0).p = false) ∧
    ∀ w, (getCore matrixState 0).formats = some w → w.getLsbD 1 = true ∧ w.getLsbD 1 = true := by
  refine ⟨by unfold formatPair; decide, fun w h => ?_⟩
  exact absurd h (by simp [getCore, matrixState, runs, Tab.get])

theorem test_mcfg_pair : (match exec (.mcfg 0 2) matrixState with
    | .next t => rdb t (Reg.CORE_STATUS 0) 4 && (getCore t 0).mode == { fa := 1, fb := 1, accInt := true }
    | _ => false) = true := by decide +kernel

theorem witness_MmacIntegerProduct : (let s := matrixState;
    (readA s 0 0).p = false ∧ (readS s 0 1).p = false ∧ (getCore s 0).mode.fa = 1 ∧ (getCore s 0).mode.fb = 1 ∧
    (getCore s 0).mode.accInt = true) := by decide +kernel

theorem witness_TileLoadStore :
    (let s := matrixState; (readA s 0 0).p = false ∧ twinned s 0 = false ∧ (getCore s 0).mode.accInt = true ∧
      (readA s 0 0).v.toNat % 2 ^ 20 / 64 * 64 + 8192 ≤ 2 ^ 20 ∧ (7 < 8) ∧ (3 < 4)) ∧
    ∀ w, (getCore matrixState 0).formats = some w → w.getLsbD 4 = true :=
  ⟨by decide, fun w h => absurd h (by simp [getCore, matrixState, runs, Tab.get])⟩

theorem witness_VectorLanes : (31 < 32) ∧ (3 ≤ 3) ∧ (6 ≤ 6) ∧ (0 ≤ 2) ∧ (2 ≤ 2) := by decide +kernel

theorem test_vadd_wraps : (match exec (.vadd 0 2 1 1 5) (runs 0 { v := [(1, { v := 0x80 })] } []) with
    | .next t => (readV t 0 2).v == 0
    | _ => false) = true := by decide +kernel

theorem witness_VectorRest :
    (let s := matrixState; (readA s 0 0).p = false ∧ twinned s 0 = false ∧
      ((readA s 0 0).v + (7936 : BitVec 32).signExtend 64).toNat % 2 ^ 20 / 64 * 64 + 256 ≤ 2 ^ 20 ∧ (readV s 0 31).p = 0 ∧
      (3 ≤ 6) ∧ (5 ≤ 5) ∧ (1 ≤ 1) ∧ (31 < 32) ∧ (63 < 64)) := by decide +kernel

/-- RESIZE_NEAREST of one 2 × 2 plane of 8-bit elements to one element: the plane stands at 0x400, the output at 0x800. -/
def resizeDesc (need : Nat) : List Word :=
  [BitVec.ofNat 64 (9 + 16 + 2 ^ 14), BitVec.ofNat 64 (2 + 2 ^ 17 + 2 ^ 32 + 2 ^ 48),
    BitVec.ofNat 64 (1 + 2 ^ 8 + 2 ^ 16 + 2 ^ 20 + 2 ^ 24 + 2 ^ 28 + 2 ^ 48), BitVec.ofNat 64 (1 + 2 ^ 16),
    BitVec.ofNat 64 (0x400 + 128 * 2 ^ 32), BitVec.ofNat 64 (0x800 + 64 * 2 ^ 32), BitVec.ofNat 64 (64 + 64 * 2 ^ 16),
    0, BitVec.ofNat 64 (2 ^ 16 + 2 * 2 ^ 48), BitVec.ofNat 64 need, 0, 0, 0, 0, 0, 0]

/-- A descriptor at address 0 of core 0's store, named by A0. -/
def descState (ws : List Word) : State := withWords (runs 0 {} []) (coreStoreBase 0) ws

theorem witness_WindowJobs :
    (let s := descState (resizeDesc 0)
      let ws := descWords s 0 0 16
      let d := parseWDesc (ws.map (·.v))
      twinned s 0 = false ∧ (getCore s 0).wn = none ∧ (readA s 0 0).p = false ∧ ws.any (·.p) = false ∧
      wdOk (ws.map (·.v)) d = true ∧ d.op = 9 ∧ d.inFmt = 1 ∧ d.srcCl = false ∧ d.dstCl = false ∧ d.huRows = 0 ∧
      d.hdRows = 0 ∧ d.otRows = 0 ∧ d.obRows = 0 ∧ d.wo ≤ d.dstRow ∧ d.rowCount * d.dstRow ≤ d.dstPlane ∧
      d.dstAddr + d.cOut * d.dstPlane ≤ 2 ^ 20 ∧
      ∀ o < d.cIn, ∀ r < d.inRows, ∀ x < d.w, d.srcAddr + o * d.srcPlane + r * d.srcRow + x < 2 ^ 20 ∧
        d.srcAddr + o * d.srcPlane + r * d.srcRow + x < d.dstAddr) ∧
    (let s := descState []
      let ws := descWords s 0 0 16
      (getCore s 0).wn = none ∧ ws.any (·.p) = false ∧ wdOk (ws.map (·.v)) (parseWDesc (ws.map (·.v))) = false) ∧
    (let s := setPoison (descState []) (coreStoreBase 0) true; (descWords s 0 0 16).any (·.p) = true) := by decide +kernel

theorem test_resize_nearest :
    (match exec (.wnRun 0 0) (setByte (descState (resizeDesc 0)) (coreStoreBase 0 + 0x400 + 64 + 1) 0x5A) with
    | .next t => getByte t (coreStoreBase 0 + 0x800) == 0x5A
    | _ => false) = true := by decide +kernel

/-- MAX_POOL over the rows of a 2 × 1 plane, one output row a row: the upper halo slot holds the plane's row 0. -/
def poolDesc (own : Nat) (ot : Word) : List Word :=
  [BitVec.ofNat 64 (3 + 16 + 2 ^ 14), BitVec.ofNat 64 (2 + 2 ^ 16 + 2 ^ 32 + 2 ^ 48),
    BitVec.ofNat 64 (1 + 2 ^ 8 + 2 ^ 16 + 2 ^ 20 + 2 ^ 24 + 2 ^ 28 + 2 ^ 48), 0, BitVec.ofNat 64 0x400,
    BitVec.ofNat 64 0x800, BitVec.ofNat 64 (64 + 64 * 2 ^ 16), 0,
    BitVec.ofNat 64 (own * 2 ^ 16 + 2 ^ 32 + 2 ^ 48), BitVec.ofNat 64 (2 * 2 ^ 32 + 3 * 2 ^ 40 + 2 ^ 48), 0, ot, 0, 0, 0, 0]

/-- A window job in progress on core 0. -/
def wnState (j : WnJob) (l : List (Nat × Word)) : State := runs 0 { wn := some j } l

/-- The job of `poolDesc` at an output row, waiting for something. -/
def poolJob (ot : Word) (row done : Nat) (w : WnWait) : WnJob :=
  ⟨poolDesc (if ot = 0 then 1 else 2) ot, row, w, false, false, done, 0, false, false⟩

theorem witness_WindowAckWait : (let ot : Word := BitVec.ofNat 64 (4 * 2 ^ 32 + 5 * 2 ^ 40 + 2 ^ 48 + 2 ^ 56)
    let j := poolJob ot 0 0 .ackTop
    let s := wnState j [(semReg (.cluster 0 5), 1)]
    let d := parseWDesc j.desc
    twinned s 0 = false ∧ (getCore s 0).wn = some j ∧ doneRows d upIdx d.huRows j.row = j.upDone ∧
    doneRows d downIdx d.hdRows j.row = j.downDone ∧ j.row < d.rowCount ∧ j.row < d.otRows ∧ j.topAcked = false ∧
    d.otNeed ≠ 0 ∧ j.row + d.obRows < d.rowCount ∧ needRow d upIdx j.row = some 0 ∧ d.huSem ≠ d.otAck ∧
    d.otNeed ≤ semGet s (.cluster 0 d.otAck) ∧ semGet s (.cluster 0 d.huSem) < 0 + 1) := by decide +kernel

theorem witness_WindowHaloWait : (let j : WnJob := ⟨poolDesc 1 0 |>.set 9 (BitVec.ofNat 64 (2 * 2 ^ 32 + 3 * 2 ^ 40 + 2 * 2 ^ 48))
        |>.set 1 (BitVec.ofNat 64 (3 + 2 ^ 16 + 2 ^ 32 + 2 ^ 48)) |>.set 8 (BitVec.ofNat 64 (2 ^ 16 + 2 * 2 ^ 32 + 2 ^ 48)),
        0, .haloUp 0, false, false, 0, 0, false, false⟩
    let s := wnState j [(semReg (.cluster 0 2), 1)]
    let d := parseWDesc j.desc
    (getCore s 0).wn = some j ∧ doneRows d upIdx d.huRows j.row = j.upDone ∧
    doneRows d downIdx d.hdRows j.row = j.downDone ∧ j.wait = .haloUp 0 ∧ j.upSettled = false ∧ j.row + 1 = d.rowCount ∧
    d.otRows = 0 ∧ d.obRows = 0 ∧ d.hdRows = 0 ∧ needRow d upIdx j.row = some 0 ∧
    0 + 1 ≤ semGet s (.cluster 0 d.huSem) ∧ semGet s (.cluster 0 d.huSem) < d.huRows) := by decide +kernel

theorem witness_WindowSettle : (let j := poolJob 0 1 1 .final
    let s := wnState j [(semReg (.cluster 0 2), 1), (semReg (.cluster 0 3), 0xFFFF)]
    let d := parseWDesc j.desc
    (getCore s 0).wn = some j ∧ doneRows d upIdx d.huRows j.row = j.upDone ∧
    doneRows d downIdx d.hdRows j.row = j.downDone ∧ j.wait = .final ∧ d.rowCount ≤ j.row ∧ j.upSettled = false ∧
    0 < d.huRows ∧ d.hdRows = 0 ∧ d.huAck ≠ d.huSem ∧ j.upDone ≤ d.huRows ∧ d.huRows ≤ semGet s (.cluster 0 d.huSem) ∧
    semGet s (.cluster 0 d.huAck) + (d.huRows - j.upDone) ≤ 0xFFFF) := by decide +kernel

/-- An attention job of one row of one head, its batch table in DRAM. -/
def attnDesc : List Word :=
  [BitVec.ofNat 64 (1 + 10 * 16 + 12 * 2 ^ 9 + 2 * 2 ^ 14 + 64 * 2 ^ 21), BitVec.ofNat 64 (2 ^ 56), 1, 0, 0x1000, 0, 0x2000,
    0x10010000000, 0, 0, 0, 0, 0, 0, 0, 0]

/-- A merge of two partials of one vector. -/
def mergeDesc : List Word :=
  [BitVec.ofNat 64 (2 + 12 * 16 + 2 * 2 ^ 9), BitVec.ofNat 64 (1 + 64 * 2 ^ 16), 0, BitVec.ofNat 64 (0x3000 + 0x1000 * 2 ^ 32),
    BitVec.ofNat 64 (0x2000 * 2 ^ 32), 0, 0, 0]

/-- Core 0 with `attnDesc` and a row that admits no position. -/
def attnState : State := withWords (descState attnDesc) 0x10010000000 [1, 0, BitVec.ofNat 64 (2 ^ 37), 0]

theorem witness_AttentionJobs :
    (let s := attnState
      let job := (descWords s 0 0 16).map (·.v)
      let d := parseAt job
      twinned s 0 = false ∧ (readA s 0 0).p = false ∧ (descWords s 0 0 16).any (·.p) = false ∧ atOk job d = true ∧
      rdb s Reg.DRIFT_CTL 0 = false ∧ d.mask = 2 ∧ d.window = 0 ∧ d.posn = false ∧ d.append = false ∧ d.lseEn = false ∧
      d.qCl = false ∧ d.outCl = false ∧ d.outFmt = 12 ∧ d.stageCount = 0 ∧ d.batchFirst = 0 ∧ d.batchCount = 0 ∧
      d.rowSkip = 0 ∧ d.rowLimit = 0 ∧ d.kvhCount = 1 ∧ d.gq = 1 ∧ d.batchAddr = 0x10010000000 ∧
      (∀ k < 4, (getWord s (d.batchAddr / 8 * 8 + 8 * k)).p = false) ∧
      (getWord s (d.batchAddr / 8 * 8)).v.toNat % 2 ^ 13 = 1 ∧
      (getWord s (d.batchAddr / 8 * 8 + 16)).v.toNat / 2 ^ 37 % 2 ^ 21 = 1 ∧
      d.outAddr + 4 * d.hdim ≤ 2 ^ 20 ∧ d.statusAddr + 16 ≤ 2 ^ 20 ∧ d.statusAddr % 8 = 0 ∧
      d.outAddr + 4 * d.hdim ≤ d.statusAddr) ∧
    Reach attnState (.engine 0) 0x10010000000 4 ∧
    (let s := descState []
      let job := (descWords s 0 0 16).map (·.v)
      atOk job (parseAt job) = false ∧ mergeOk (job.take 8) (parseMerge (job.take 8)) = false) :=
  ⟨by decide +kernel, reach_whole (by decide) (by decide) (by decide) (by decide), by decide +kernel⟩

theorem witness_AttentionMerge :
    (let s := setNum (descState mergeDesc) (coreStoreBase 0 + 0x3000) 8 0xFF800000FF800000
      let mrg := (descWords s 0 0 8).map (·.v)
      let e := parseMerge mrg
      (descWords s 0 0 8).any (·.p) = false ∧ mergeOk mrg e = true ∧ e.outFmt = 12 ∧ e.rows = 1 ∧ e.partCl = false ∧
      e.outCl = false ∧ e.lseEn = false ∧ (∀ i < e.num, csRead4 s 0 (e.plseAddr + 4 * i) = (0xFF800000, false)) ∧
      e.outAddr + 4 * e.hdim ≤ e.statusAddr) := by decide +kernel

/-! ### Rings, the page authority, registers, clocks, errors, memory (00, 01, 05, 06): hypotheses met -/

/-- A ring pair in DRAM, of one entry on each side. -/
def ringRec : RingRec := ⟨0x10010000000, 0, 0x10010001000, 0, 1, false, true⟩

/-- The entry with tag 7 of priority 0 of function 0. -/
def ent0 : Ent := ⟨0, 0, 7⟩

/-- The entry `id` of ent0, consumed and not begun. -/
def pend0 (opcode : Nat) (ws : List Word) : Pend := ⟨1, ent0, opcode, false, ws, 0, 0, 0, false, none⟩

/-- A device with ringRec open for function 0 and an entry taken from it. -/
def ringState (opcode : Nat) (ws : List Word) (l : List (Nat × Word)) : State :=
  { up ((Reg.INST_STATE 16 0, 2) :: l) with
    rime := { fns := [(0, { recs := [(0, ringRec)], version := some (3, 0) })], pend := [pend0 opcode ws] } }

/-- `Taken`, computed. -/
def takenB (s : State) (e : Ent) (opcode : Nat) (ws : List Word) (p : Pend) : Bool :=
  takePend s e opcode ws == some p && pendOf s p.id == some p

theorem taken_of {s : State} {e : Ent} {opcode : Nat} {ws : List Word} {p : Pend}
    (h : takenB s e opcode ws p = true) : Taken s e opcode ws p := by
  simp only [takenB, Bool.and_eq_true, beq_iff_eq] at h
  exact h

theorem witness_RingOpen : RingOpen (ringState 0x44 [5] []) ent0 ringRec := ringOpen_of (by decide +kernel)

theorem witness_Taken : Taken (ringState 0x44 [5] []) ent0 0x44 [5] (pend0 0x44 [5]) := taken_of (by decide +kernel)

/-- A prefix tree with the blocks of hash 0 in `k` ways of set 0. -/
def treeState (opcode : Nat) (ws : List Word) (k : Nat) (hash : Word) : State :=
  let s := ringState opcode ws [(Reg.FIRN_CTL, 3)];
  { withWords s 0x10010002000 [hash] with
    firn := { tabs := { tree := (List.range k).map (fun w => (w, ⟨0x20000, 0, true, w, 0⟩)) } } }

theorem witness_FirnTables :
    (let s := ringState 0x41 [5] []; RingOpen s ent0 ringRec ∧ Taken s ent0 0x41 [5] (pend0 0x41 [5])) ∧
    (let s := ringState 0x42 [0, 0x10010002000, 1] [];
      RingOpen s ent0 ringRec ∧ Taken s ent0 0x42 [0, 0x10010002000, 1] (pend0 0x42 [0, 0x10010002000, 1]) ∧
      Reach s .firn 0x10010002000 1 ∧ rdb s Reg.FIRN_CTL 1 = false) ∧
    (let s := treeState 0x42 [0, 0x10010002000, 1] 8 0x20000;
      RingOpen s ent0 ringRec ∧ Taken s ent0 0x42 [0, 0x10010002000, 1] (pend0 0x42 [0, 0x10010002000, 1]) ∧
      Reach s .firn 0x10010002000 1 ∧ rdb s Reg.FIRN_CTL 1 = true ∧ getWord s 0x10010002000 = ⟨0x20000, false⟩ ∧
      treeFind s 0x20000 none = some 0 ∧ (Tab.find s.firn.tabs.tree 0).isSome = true) ∧
    (let s := treeState 0x43 [5, 0x10010002000, 1] 7 0x40000;
      RingOpen s ent0 ringRec ∧ Taken s ent0 0x43 [5, 0x10010002000, 1] (pend0 0x43 [5, 0x10010002000, 1]) ∧
      Reach s .firn 0x10010002000 1 ∧ rdb s Reg.FIRN_CTL 1 = true ∧ getWord s 0x10010002000 = ⟨0x40000, false⟩ ∧
      treeFind s 0x40000 none = none ∧ treeFree s 0x40000 = some 7) ∧
    (let s := treeState 0x43 [5, 0x10010002000, 1] 8 0x40000;
      RingOpen s ent0 ringRec ∧ Reach s .firn 0x10010002000 1 ∧ treeFind s 0x40000 none = none ∧
      treeFree s 0x40000 = none) ∧
    (let s := up [];
      s.firn.tc.any (fun x => x.die == 0 && x.page == 3) = false ∧ rdn s (Reg.FIRN_TC_MISS 0) < 2 ^ 32 - 1) :=
  ⟨⟨ringOpen_of (by decide +kernel), taken_of (by decide +kernel)⟩,
    ⟨ringOpen_of (by decide +kernel), taken_of (by decide +kernel), reach_whole (by decide) (by decide) (by decide) (by decide), by decide +kernel⟩,
    ⟨ringOpen_of (by decide +kernel), taken_of (by decide +kernel), reach_whole (by decide) (by decide) (by decide) (by decide), by decide +kernel⟩,
    ⟨ringOpen_of (by decide +kernel), taken_of (by decide +kernel), reach_whole (by decide) (by decide) (by decide) (by decide), by decide +kernel⟩,
    ⟨ringOpen_of (by decide +kernel), reach_whole (by decide) (by decide) (by decide) (by decide), by decide +kernel⟩, by decide +kernel⟩

/-- Model instance 0, all of whose shards stand on this device or half of them. -/
def mi0 (shards : Nat) : MiDecl := ⟨1, 0, 0, 1, false, shards, 0, 0, 1, [0], 0⟩

/-- The step of pend0, its descriptor at 0x10010002000. -/
def step0 : StepCmd := ⟨1, 0, 0x10010002000, 1⟩

/-- A device whose next step of model instance 0 is step0. -/
def stepState (head : Word) (shards : Nat) (b : Option Boundary) : State :=
  { withWords (ringState 0x40 [0, 0x10010002000] [(Reg.FIRN_CTL, 1)]) 0x10010002000 [head] with
    firn := { mis := [(0, mi0 shards)], queue := [step0], busy := b } }

/-- Its boundary in progress. -/
def bound0 (agreed : Nat) : Boundary := ⟨step0, 0, 0, {}, [(0x10010003000, ⟨0, false⟩)], [], [], 0, [], agreed⟩

theorem witness_FirnSteps :
    (let s := stepState 0 1 none;
      serving s 0 = true ∧ takenB s ent0 0x40 [0, 0x10010002000] (pend0 0x40 [0, 0x10010002000]) = true ∧
      s.firn.busy = none ∧ nextStep s 0 = some step0 ∧ miOf s 0 = some (mi0 1) ∧ rdb s Reg.FIRN_CTL 0 = true ∧
      (mi0 1).localCount = (mi0 1).shards ∧ stepRefusal 0 (getWords s step0.addr 8) [] = none) ∧
    Reach (stepState 0 1 none) .firn step0.addr 8 ∧
    (let s := stepState 1 2 none;
      (getWords s step0.addr 8).getD 0 ⟨0, true⟩ = ⟨1, false⟩ ∧ live s 2 = true ∧
      pendOf s step0.pid = some (pend0 0x40 [0, 0x10010002000]) ∧ s.rime.jobs = []) ∧
    RingOpen (stepState 1 2 none) ent0 ringRec ∧ RingOpen (stepState 0 2 (some (bound0 2))) ent0 ringRec ∧
    (∀ k ≤ 2, let s := stepState 0 2 (some (bound0 k));
      s.firn.busy = some (bound0 k) ∧ (bound0 k).cmd.mi = 0 ∧ (bound0 k).agreed = k ∧ live s 2 = true ∧
      miOf s 0 = some (mi0 2) ∧ pendOf s (bound0 k).cmd.pid = some (pend0 0x40 [0, 0x10010002000]) ∧
      ((bound0 k).slots.map (·.1)).Nodup ∧ ∀ x ∈ (bound0 k).slots, x.1 % 8 = 0) :=
  ⟨by decide +kernel, reach_whole (by decide) (by decide) (by decide) (by decide), by decide +kernel, ringOpen_of (by decide +kernel),
    ringOpen_of (by decide +kernel), by decide +kernel⟩

/-- A row of the register tables, as `regInfo` answers it, with a property. -/
def infoB (a : Nat) (b : Blk) (f : RegRow → Bool) : Bool :=
  match regInfo a with
  | some (b', _, r) => decide (b' = b) && f r
  | none => false

theorem witness_RegisterAccess :
    (let s := up [(Reg.STR_CRC 3, 5)];
      Blk.stream ∈ plainBlocks ∧ Blk.sec ∈ plainBlocks ∧ infoB Reg.STR_CTL .stream (fun r => r.rc == 0) = true ∧
      infoB (Reg.STR_CRC 3) .stream (fun r => r.rc != 0) = true ∧
      (mayWrite s (.rime 1 .normal) .stream 0 (Reg.STR_CTL - Blk.base .stream 0) &&
        !rwlLocked s .stream (Reg.STR_CTL - Blk.base .stream 0) Reg.STR_CTL) = true ∧
      mayWrite s (.rime 2 .normal) .stream 0 (Reg.STR_CTL - Blk.base .stream 0) = false ∧
      Requester.serac ≠ .debug) := by decide +kernel

theorem test_rc_read : (match exec (.rcRead .serac (Reg.STR_CRC 3) 2) (up [(Reg.STR_CRC 3, 5)]) with
    | .next t => rd t (Reg.STR_CRC 3) == 2
    | _ => false) = true := by decide +kernel

theorem witness_W1cFlags : (let a := Reg.ERR_STATUS .core 9;
    infoB a .core (fun r => r.w1c != 0) = true ∧ mayWrite (up []) (.rime 4 .normal) .core 9 (a - Blk.base .core 9) = true ∧
    pinHidden (up []) (.rime 4 .normal) .core (a - Blk.base .core 9) = false) := by decide +kernel

theorem test_set_meets_clear : (match exec (.w1cClear (.rime 4 .normal) (Reg.ERR_STATUS .core 9) 3 1)
      (up [(Reg.ERR_STATUS .core 9, 3)]) with
    | .next t => rd t (Reg.ERR_STATUS .core 9) == 1
    | _ => false) = true := by decide +kernel

theorem witness_Clocks :
    (let s := State.reset;
      s.pending = [] ∧ s.clk.locked = false ∧ ({ s with power := { boot := .started } } : State).power.boot ≠ .held) ∧
    (let s := up [];
      s.clk.locked = true ∧ s.clk.wasLocked = true ∧ (7919 < 7920) ∧ (8080 < 8081) ∧ (31679 < 31680) ∧ (32320 < 32321) ∧
      (25343 < 25344) ∧ (25856 < 25857) ∧ live s 7 = true ∧ 4 ≤ (6 : BitVec 3).toNat ∧ (6 : BitVec 3).toNat ≤ 6 ∧
      (3 : BitVec 3).toNat < 4 ∧ 6 < (7 : BitVec 3).toNat) ∧
    (let s : State := { up [(Reg.MEM_STATUS 6, 8)] with dies := [(3, { cdivBusy := true })] };
      (getDie s 3).cdivBusy = true ∧ s.power.changing = none ∧
      (getDie s 3).cdivNext.toNat ≤ rdf s (Reg.DIE_CLK_STATUS 3) 2 0 ∧ rdb s (Reg.MEM_STATUS 6) 3 = true ∧
      (getDie s 3).held = []) := by decide +kernel

theorem witness_ErrorReports :
    (let s : State := { up [] with reports := [⟨.package, 0, .uc, 0x94, 0, false⟩, ⟨.core, 0, .uc, 0x21, 0, true⟩] };
      s.reports.head? = some ⟨.package, 0, .uc, 0x94, 0, false⟩) ∧
    (let r : Report := ⟨.die, 3, .fe, 0x6B, 0, false⟩;
      r.inj = false ∧ r.lvl = .die ∧ r.cls = .fe ∧ r.src ≠ 0x6C ∧ r.src < 256) ∧
    (0x943 : BitVec 32).toNat % 8 = 3 ∧ sourceValid .package ((0x943 : BitVec 32).toNat / 16 % 256) .uc = true := by
  decide +kernel

/-- Word 8 of cluster store 0. -/
def clu8 : Nat := 0x108000008

theorem witness_MemoryAccesses :
    (let s := up [(Reg.DIE_MEM_STATUS 0, 1)];
      clu8 % 8 = 0 ∧ rdb s Reg.DRIFT_CTL 0 = false ∧ placeOf clu8 = .clusterStore 0 8 ∧ storeHeld s .serac clu8 = none ∧
      refusedBy s .serac clu8 = false ∧ (getWord s clu8).p = false ∧ rdb s (Reg.DIE_MEM_CTL 0) 1 = false) ∧
    (let s := up [];
      placeOf 0x10000000000 = .dram 0 0 ∧ dramHeld s 0 = false ∧ (getDie s 0).held = [] ∧
      refusedBy s (.rime 0 .normal) 0x10000000000 = true ∧ rdb s Reg.SEC_STATUS 0 = false) ∧
    (let s := up [(Reg.MEM_PCH_RETIRED 1, 1)];
      placeOf 0x10010001000 = .dram 0 0x10001000 ∧ refusedBy s .serac 0x10010001000 = false ∧
      absentAt s 0 0x10001000 = some 1) := by decide +kernel

theorem witness_FillsAndLogs :
    (let s := up [];
      mayWrite s (.rime 7 .normal) .die 3 0x200 = true ∧ (∀ l < 32, running s (32 * 3 + l) = false) ∧
      rdb s (Reg.DIE_MEM_STATUS 3) 0 = false ∧ parked s 3 = false ∧ (getDie s 3).fillWait = [] ∧
      LogId.wf (.coreStore 127) = true ∧ (1 : BitVec 32).getLsbD 0 = true ∧ (0x10000 : BitVec 32).getLsbD 16 = true ∧
      (1 : BitVec 32).getLsbD 16 = false ∧ (1 : BitVec 32).getLsbD 15 = false) ∧
    running (runs 127 {} []) (32 * 3 + 31) = true := by decide +kernel

/-! ### Movers, rings, jobs, images and long operations (02, 07, 08): hypotheses met -/

theorem witness_CoreMoverInstructions :
    (let s := runs 127 coreRegs [];
      chanBusy s (.core 127 7) = false ∧ chanArmed s (.core 127 7) = false ∧ (readA s 127 0).p = false) ∧
    (let s := runs 127 coreRegs [(Reg.MV_STATUS (.core 127 7), 1)];
      chanBusy s (.core 127 7) = true ∧ chanArmed s (.core 127 7) = false) := by decide

/-- Core 127's channel 7 in register mode, to copy 16 bytes from 0 to 16. -/
def copyState : State :=
  let c : ChanId := .core 127 7
  { up [(Reg.MV_STATUS c, 1), (Reg.MV_SRC c, 0xFC0000000000), (Reg.MV_DST c, 0xFC0000000010), (Reg.MV_COUNT c, 16)] with
    chans := [(chanKey c, { regMode := true, fetch := true })] }

theorem witness_RegisterModeCopy : (let s := copyState; let c : ChanId := .core 127 7;
    twinned s 127 = false ∧ chanBusy s c = true ∧ (getChan s c).fetch = true ∧ (getChan s c).regMode = true ∧
    rdf s (Reg.MV_SRC c) 47 0 = 0xFC * 2 ^ 40 + 8 * 0 ∧ rdf s (Reg.MV_DST c) 47 0 = 0xFC * 2 ^ 40 + 8 * 2 ∧
    rdf s (Reg.MV_COUNT c) 31 0 = 8 * 2 ∧ 8 * (0 + 2) ≤ 2 ^ 20 ∧ 8 * (2 + 2) ≤ 2 ^ 20 ∧ 0 + 2 ≤ 2 ∧
    ∀ e < 8, rdb s (Reg.ENCL_A e) 51 = false) := by decide

theorem test_register_mode_copy :
    (match exec (.mvDescriptorFetch (.core 127 7)) (setNum copyState (coreStoreBase 127 + 8) 8 77) with
    | .next t => getWord t (coreStoreBase 127 + 24) == ⟨77, false⟩
    | _ => false) = true := by decide +kernel

theorem witness_ChannelStarts : (let c : ChanId := .cluster 15 15;
    (let s := up []; chanBusy s c = false ∧ chanArmed s c = false ∧ (1 : BitVec 32).getLsbD 0 = true ∧
      (1 : BitVec 32).getLsbD 1 = false ∧ semGet s (.cluster 15 (rdf s (Reg.MV_CTL c) 11 4)) = 0) ∧
    chanBusy (up [(Reg.MV_STATUS c, 1)]) c = true ∧
    (let s := up [(Reg.MV_STATUS c, 2), (semReg (.cluster 15 0), 1)];
      chanArmed s c = true ∧ 1 ≤ semGet s (.cluster 15 (rdf s (Reg.MV_CTL c) 11 4)))) := by decide

/-- A channel whose last descriptor waits for its completion point. -/
def endState (c : ChanId) : State :=
  { up [(Reg.MV_STATUS c, 1)] with chans := [(chanKey c, { fin := some ⟨0, 0, 8, 1, 8, 8, 0, false, false, false, 0⟩ })] }

theorem witness_ChannelCompletion :
    (∀ c ∈ [ChanId.core 127 7, .cluster 15 7, .hub 7], let s := endState c;
      (getChan s c).fin = some ⟨0, 0, 8, 1, 8, 8, 0, false, false, false, 0⟩ ∧ (getChan s c).left = 0 ∧
      (getChan s c).trig = false ∧ chanBusy s c = true ∧ rdb s (Reg.MV_CTL c) 31 = false) ∧
    (let s : State := { up [(Reg.MV_STATUS (.hub 7), 0xFE000001)] with lines := [(60, chanKey (.hub 7))] };
      Tab.find s.lines 60 = some (chanKey (.hub 7)) ∧ chanBusy s (.hub 7) = true ∧ (getChan s (.hub 7)).fin = none ∧
      rdf s (Reg.MV_STATUS (.hub 7)) 31 24 < 255) ∧
    (let s := up []; let cap := rdf s (Reg.DRIFT_CAP 0) 15 0; let others := minOf s 0 0 + minSum s 0 - minOf s 0 3;
      minOf s 0 3 < limitOf cap + 1 ∧ limitOf cap < others + (limitOf cap + 1) ∧ others + limitOf cap ≤ limitOf cap ∧
      limitOf cap + 1 < 65536) := by decide +kernel

theorem witness_RingsAndInstances :
    (let s := ringState 0 [] [];
      (0 < 17) ∧ ringOf s 0 0 = some ringRec ∧ ahead 1 (rdn s (Reg.HIF_SQ_HEAD 0 0)) ≤ 2 ^ ringRec.sqLog2 ∧
      2 ^ ringRec.sqLog2 < ahead 2 (rdn s (Reg.HIF_SQ_HEAD 0 0)) ∧
      ahead (rdn s (Reg.HIF_CQ_HEAD 0 0)) (rdn s (Reg.HIF_CQ_TAIL 0 0)) = 0 ∧
      0 < ahead 1 (rdn s (Reg.HIF_CQ_TAIL 0 0)) ∧ ahead 1 (rdn s (Reg.HIF_CQ_TAIL 0 0)) < 2 ^ 31 ∧
      2 ^ 31 ≤ ahead 0x80000000 (rdn s (Reg.HIF_CQ_TAIL 0 0)) ∧ pairStopped s 0 0 = false ∧ 2 ≤ instState s 0 ∧
      live s 0 = true) ∧
    (∀ v ∈ [((0x300 : Word), 3, 0), (0x301, 3, 1), (0x400, 4, 0)],
      let s : State := { ringState 0 [] [(Reg.INST_STATE 16 0, 1), (Reg.HIF_HOST_VER 0, v.1)] with
        rime := { fns := [(0, { recs := [(0, ringRec)] })] } };
      serving s 0 = true ∧ instState s 0 = 1 ∧ scrubOn s = false ∧ rdf s Reg.SEC_TENANT 1 0 ≠ 2 ∧
      (getFn s 0).recs ≠ [] ∧ (∀ x ∈ (getFn s 0).recs, x.2.valid = true) ∧
      rdf s (Reg.HIF_HOST_VER 0) 15 8 = v.2.1 ∧ rdf s (Reg.HIF_HOST_VER 0) 7 0 = v.2.2 ∧
      rdf s (Reg.HIF_FW_VER 0) 7 0 = 0) := by decide +kernel

/-- A ring with one entry to be consumed. -/
def entryState (ws : List Word) : State :=
  let s := withWords (ringState 0 [] [(Reg.HIF_SQ_TAIL 0 0, 1)]) 0x10010000000 ws
  { s with rime := { s.rime with pend := [] } }

theorem witness_EntryConsumption :
    RingOpen (entryState [0x700000000]) ent0 ringRec ∧ Reach (entryState [0x700000000]) (.rime 0 .normal) 0x10010000000 8 ∧
    (∀ ws ∈ [[(0x700000000 : Word)], [0x700000051], [0x700000044, 5]],
      let s := entryState ws; let w := (getWords s 0x10010000000 8).map (·.v);
      nextPair s = some 0 ∧ passPair 0 = (0, 0) ∧ rdn s (Reg.HIF_SQ_HEAD 0 0) = 0 ∧
      (getWords s 0x10010000000 8).any (·.p) = false ∧ ent0.tag.toNat = (w.getD 0 0).toNat / 2 ^ 32 ∧ scrubOn s = false ∧
      (w.drop 2).all (· == 0) = true ∧ (seqOf s (w.getD 1 0).toNat).state = 0 ∧
      ((w.getD 0 0).toNat % 2 ^ 32 = 0 ∨ 0x50 < (w.getD 0 0).toNat % 2 ^ 8 ∨ (w.getD 0 0).toNat % 2 ^ 32 = 0x44)) ∧
    Taken (ringState 0x50 [] []) ent0 0x50 [] (pend0 0x50 []) :=
  ⟨ringOpen_of (by decide +kernel), reach_whole (by decide +kernel) (by decide) (by decide) (by decide),
    by decide +kernel, taken_of (by decide +kernel)⟩

theorem witness_MessagesAndLog :
    (∀ v ∈ [0, 1], let s : State := { up [(Reg.MSIX_CTL 16 15, BitVec.ofNat 64 v)] with rime := { msixPend := [(16, 15)] } };
      s.rime.msixPend.contains (16, 15) = true ∧ rdb s (Reg.MSIX_CTL 16 15) 0 = (v == 1) ∧ (getFn s 16).bme = true ∧
      Tab.find s.rime.msixLast (16 * 2048 + 15) = none) ∧
    (let s : State := { up [] with rime := { msixPend := [(0, 1)], msixLast := [(1, 0)] } };
      Tab.find s.rime.msixLast (0 * 2048 + 1) = some 0 ∧ nowN s < 0 + 1000) ∧
    (let s : State := { up [] with rime := { logCfg := some ⟨0x10010000000, 8, 0⟩ } };
      live s 7 = true ∧ live s 3 = true ∧ s.rime.logCfg = some ⟨0x10010000000, 8, 0⟩ ∧
      0x10010000000 + s.rime.logSeq % 2 ^ 8 * 32 = 0x10010000000 ∧ Tab.find s.host.dirty 31 = none) ∧
    Reach { up [] with rime := { logCfg := some ⟨0x10010000000, 8, 0⟩ } } (.rime 3 .normal) 0x10010000000 4 :=
  ⟨by decide +kernel, by decide +kernel, by decide +kernel, reach_whole (by decide) (by decide) (by decide) (by decide)⟩

/-- Image `id` on core 0 with one kernel. -/
def img (id fallback : Word) : Image :=
  ⟨id, 0, fallback, 2, false, true, 1, 1, 1, 0, 0, 0, 0, 0, 0, [], [0], [0], [], [], [], [⟨0, 1, false, 0, 0⟩], [], [],
    [], false⟩

/-- A job of image 1. -/
def job (phase : JobPhase) : Job :=
  ⟨5, 1, ent0, 1, 1, [], 0, 0, none, false, none, 0, phase, 0, [], false, none, none, false, false⟩

/-- A ring state with images 1 and 2 loaded, image 1 in core 0's instruction store. -/
def jobState (opcode : Nat) (ws : List Word) (jobs : List Job) (c : CoreSt) : State :=
  let s := ringState opcode ws []
  { s with cores := [(0, c)], rime := { s.rime with jobs := jobs, images := [img 1 2, img 2 0], code := [(0, 1)] } }

theorem witness_Jobs :
    (let s := jobState 0x01 [1, 0] [] {};
      RingOpen s ent0 ringRec ∧ Taken s ent0 0x01 [1, 0] (pend0 0x01 [1, 0]) ∧ ReadyImage s (img 1 2) ∧
      imgOf s 1 = some (img 1 2) ∧ s.rime.jobs = [] ∧ (img 1 2).mis = [] ∧ (img 1 2).deadline = 0 ∧
      (img 1 2).kernels ≠ [] ∧ (img 1 2).safety = true ∧
      ∀ x ∈ s.rime.pend, x.opcode = 0x01 → x.res = none → (pend0 0x01 [1, 0]).job ≤ x.job) ∧
    (let s := jobState 0x01 [1, 0] [job .switching] {};
      RingOpen s ent0 ringRec ∧ ReadyImage s (img 1 2) ∧ s.rime.jobs = [job .switching] ∧
      imgOf s (job .switching).run = some (img 1 2) ∧ ((img 1 2).kernels[0]?).isSome = true) ∧
    (let s := jobState 0x01 [1, 0] [job .running] { haltAt := some 0 };
      RingOpen s ent0 ringRec ∧ jobServed s (img 1 2) = true ∧ (∀ c ∈ (img 1 2).home, c < 16) ∧
      (job .running).kernel + 1 = (img 1 2).kernels.length ∧ allHalted s (img 1 2) = true ∧
      pendOf s (job .running).pid = some (pend0 0x01 [1, 0])) := by
  refine ⟨⟨ringOpen_of (by decide +kernel), taken_of (by decide +kernel), ?_, by decide +kernel⟩,
    ⟨ringOpen_of (by decide +kernel), ?_, by decide +kernel⟩, ringOpen_of (by decide +kernel), by decide +kernel⟩
  all_goals unfold ReadyImage; decide +kernel

theorem witness_JobCancel :
    (let s := jobState 0x02 [9] [] {};
      RingOpen s ent0 ringRec ∧ Taken s ent0 0x02 [9] (pend0 0x02 [9]) ∧ cancelTarget s ent0 9 = none) ∧
    (∀ ph ∈ [JobPhase.waiting, .running],
      let q : Pend := ⟨2, ⟨0, 0, 9⟩, 0x01, false, [3], 0, 5, 0, true, none⟩;
      let j : Job := { job ph with pid := 2, ent := ⟨0, 0, 9⟩ };
      let s : State := jobState 0x02 [9] [j] {};
      let s : State := { s with rime := { s.rime with pend := s.rime.pend ++ [q] } };
      takenB s ent0 0x02 [9] (pend0 0x02 [9]) = true ∧ cancelTarget s ent0 9 = some q ∧ imgOf s (q.words.getD 0 0) = none ∧
      q.ent.prio = ent0.prio ∧ s.rime.jobs = [j] ∧ j.serial = q.job ∧ j.phase = ph ∧ pendOf s j.pid = some q ∧
      j.cancels = [] ∧ ringOpenB s ent0 ringRec = true) ∧
    (let j : Job := { job .waiting with fbAt := some 0 };
      let s := jobState 0x01 [1, 0] [j] {};
      s.rime.jobs = [j] ∧ j.fbAt = some 0 ∧ 0 ≤ nowN s ∧ j.run = j.image ∧ j.phase = .waiting ∧ j.cancelled = false ∧
      imgOf s j.image = some (img 1 2) ∧ (img 1 2).fallback ≠ 0 ∧ imgOf s (img 1 2).fallback = some (img 2 0) ∧
      (img 2 0).id ≠ j.image) :=
  ⟨⟨ringOpen_of (by decide +kernel), taken_of (by decide +kernel), by decide +kernel⟩, by decide +kernel, by decide +kernel⟩

/-- An image of one kernel, HALT, at 0x10010002000, and a MODEL_LOAD of it. -/
def imageState : State :=
  withWords (ringState 0x10 [0x10010002000, 0xE0] [(Reg.SEC_TENANT, 1)]) 0x10010002000
    [0x151535445, 0x5A170C54 ||| (rd State.reset Reg.HUB_STEPPING <<< 32), 1, 0, 0x0101010200000002, 0x2000000000, 0, 0, 0, 0, 0,
      0xC000000080, 0, 0, 0, 0, 1, 0, 0x10000, 0, 0, 0, 0, 0, 0x2F]

theorem witness_ImageLoads :
    RingOpen imageState ent0 ringRec ∧
    Taken imageState ent0 0x10 [0x10010002000, 0xE0] (pend0 0x10 [0x10010002000, 0xE0]) ∧
    Reach imageState (.rime 3 .normal) (0x10010002000 / 8 * 8) (0xE0 / 8 + 2) ∧
    (let s := imageState; live s 3 = true ∧ s.firn.busy = none) ∧
    (let s := imageState; let i := readImage s (fnLabel 0) 0x10010002000 0xE0;
      i.1.weights = 0 ∧ (match loadChecks i.2 i.1 0 0x10010002000 with
        | .inr x => x.1.id == 1
        | .inl _ => false) = true) ∧
    (let s := imageState; let i := readImage s (fnLabel 0) 0x10010002000 0;
      (match loadChecks i.2 i.1 0 0x10010002000 with
        | .inr _ => false
        | .inl k => k == 1) = true) :=
  ⟨ringOpen_of (by decide +kernel), taken_of (by decide +kernel),
    reach_whole (by decide +kernel) (by decide) (by decide) (by decide), by decide +kernel, by decide +kernel,
    by decide +kernel⟩

theorem witness_ImageUnloads :
    (let s := jobState 0x11 [3] [] {}; takenB s ent0 0x11 [3] (pend0 0x11 [3]) = true ∧ s.firn.busy = none ∧
      imgOf s 3 = none ∧ ringOpenB s ent0 ringRec = true) ∧
    (let s := jobState 0x11 [1] [] {}; takenB s ent0 0x11 [1] (pend0 0x11 [1]) = true ∧
      imgOf s 1 = some (img 1 2) ∧ imageInFlight s 1 = false ∧ (∀ x ∈ s.rime.images, x.fallback ≠ 1) ∧ (img 1 2).mis = [] ∧
      (∀ x ∈ s.streams.cfg, x.1 < 128) ∧ (∀ x ∈ (img 1 2).minima, x.1 < 24) ∧ (img 1 2).drift < 8 ∧
      ∀ n ∈ (img 1 2).cores, n < 128) ∧
    (let q : Pend := ⟨2, ⟨0, 0, 9⟩, 0x01, false, [1, 0], 0, 5, 0, true, none⟩;
      let s := jobState 0x11 [1] [] {};
      let s : State := { s with rime := { s.rime with pend := s.rime.pend ++ [q] } };
      takenB s ent0 0x11 [1] (pend0 0x11 [1]) = true ∧ imgOf s 1 = some (img 1 2) ∧ imageInFlight s 1 = true) := by
  decide +kernel

/-- A ring state with a long operation in flight, consumed before. -/
def longState (opcode : Nat) (ws : List Word) (k : LongKind) (suspended : Bool) : State :=
  let s := ringState opcode ws []
  let o : LongOp := ⟨9, ⟨0, 0, 9⟩, k, 0, suspended, [], [], false, false⟩
  { s with rime := { s.rime with
    pend := s.rime.pend ++ [⟨9, ⟨0, 0, 9⟩, 0x30, false, [], 0, 0, 3, true, none⟩], longs := [o] } }

theorem witness_LongBegins :
    (∀ x ∈ [(0x30, [(0x10010002000 : Word), 16, 5, 8]), (0x31, [0, 0, 0]), (0x34, [0, 1]), (0x32, [0x10010002000, 33554432, 0]),
        (0x33, [])],
      let s := ringState x.1 x.2 [(Reg.FW_STATUS, 1)];
      ringOpenB s ent0 ringRec = true ∧ serving s 3 = true ∧ takenB s ent0 x.1 x.2 (pend0 x.1 x.2) = true ∧
      s.power.boot = .ready ∧ rdb s Reg.FW_STATUS 4 = false ∧ rdb s Reg.FW_STATUS 0 = true ∧ s.rime.images = [] ∧
      aloneInFlight s (pend0 x.1 x.2) = true ∧ (nvmCopy s 0).oldHalf < 2 ∧ 33554432 ≤ 33554432 ∧ 33554432 < 33554433) ∧
    (let s := jobState 0x33 [] [] {}; takenB s ent0 0x33 [] (pend0 0x33 []) = true ∧ s.rime.images ≠ []) := by
  decide +kernel

theorem witness_LongCommands :
    (∀ op ∈ [0x20, 0x21, 0x22], ∀ b ∈ [false, true], let s := longState op [9] (.memFill 0x10010002000 16 5 7) b;
      ringOpenB s ent0 ringRec = true ∧ serving s 3 = true ∧ takenB s ent0 op [9] (pend0 op [9]) = true ∧
      longAhead s (pend0 op [9]) = false ∧ (longTarget s ent0 9).map (·.suspended) = some b ∧
      longTarget s ent0 8 = none) ∧
    (let s := longState 0x22 [9] .scrub false; longAhead s (pend0 0x22 [9]) = false ∧
      (longTarget s ent0 9).map (·.kind) = some .scrub) ∧
    (∀ len ∈ [16, 2097152], let e : Ent := ⟨0, 0, 9⟩; let s := longState 0 [] (.memFill 0x10010002000 len 5 7) false;
      let o : LongOp := ⟨9, e, .memFill 0x10010002000 len 5 7, 0, false, [], [], false, false⟩;
      ringOpenB s e ringRec = true ∧ s.rime.longs.find? (fun k => k.ent == e && !k.suspended) = some o ∧
      longOf s o.pid = some o ∧ len % 8 = 0 ∧ o.progress * 2 ^ 20 < len ∧
      (pendOf s o.pid).map (·.opcode) = some 0x30 ∧ die0Whole s = true) := by decide +kernel

theorem witness_WatchdogRestarts :
    (let s := up [(Reg.RIME_WDT_LEFT 7, 0)];
      rdb s (Reg.RIME_STATUS 7) 3 = false ∧ (0x4B1C : BitVec 32) = 0x4B1C ∧ (0x4B1D : BitVec 32) ≠ 0x4B1C ∧
      rdn s (Reg.RIME_WDT_LEFT 7) = 0 ∧ booted s = true ∧ Tab.get [] s.rime.expiries 7 = []) ∧
    (let s := up [(Reg.RIME_STATUS 2, 2)];
      rdb s (Reg.RIME_STATUS 2) 1 = true ∧ s.rime.jobs = [] ∧ s.rime.logCfg = none) := by decide

/-! ### Serac (09): hypotheses met -/

theorem logInDram_none {s : State} (h : s.rime.logCfg = none) : logInDram s := fun c hc => by simp [h] at hc

theorem witness_SeracPairs : ∀ pair < 2, ∀ missed ∈ [2, 3],
    (let s : State := { up [] with serac := { missed := [(pair, missed)] } };
      s.serac.lost = [] ∧ s.serac.devRestart = false ∧ s.power.boot = .ready ∧ Tab.get 0 s.serac.missed pair = missed ∧
      s.rime.images = [] ∧ s.rime.longs = [] ∧ s.serac.slice = none) ∧
    (let s : State := { up [] with serac := { lost := [pair] } }; s.serac.lost = [pair]) ∧
    (4 ≤ [((0 : Word), (1 : Word)), (0, 1), (0, 1), (0, 1)].length ∧
      [((0 : Word), (1 : Word)), (0, 1), (0, 1), (0, 1)].all (fun e => e.1 != e.2) = true ∧
      [((0 : Word), (1 : Word)), (0, 1), (0, 1), (2, 2)].any (fun e => e.1 == e.2) = true) := by decide

/-- Two submissions of the last pair of the last cluster. -/
def subsState (l : List TwinSub) : State := { up [] with clusters := [(15, { subs := l })] }

/-- A job of image 1 on the cores of the last pair, and Serac's mismatch of it. -/
def mismState (suspect : Word) (j : Job) : State :=
  let s := up [(Reg.SERAC_PAIR_SUSPECT, suspect), (Reg.CORE_STATUS 126, 0), (Reg.CORE_STATUS 127, 0)]
  { s with
    cores := [(126, { job := some 5 }), (127, { job := some 5 })]
    rime := { jobs := [j], images := [{ img 1 2 with home := [15], cores := [126, 127] }, img 2 0] }
    serac := { mism := [⟨15, 3, 0⟩] } }

theorem witness_TwinMismatches :
    (∀ b ∈ [7, 8], let x : TwinSub := ⟨126, 1, 7, false⟩; let y : TwinSub := ⟨127, 1, BitVec.ofNat 64 b, false⟩;
      let s := subsState [x, y];
      subPair s 15 3 = some (x, some y) ∧ x.gap = false ∧ y.gap = false ∧ s.rime.logCfg = none ∧ jobOn s 126 = none) ∧
    (∀ g ∈ [false, true], let x : TwinSub := ⟨127, 1, 7, g⟩; let s := subsState [x];
      subPair s 15 3 = some (x, none) ∧ x.gap = g ∧ s.rime.logCfg = none ∧ jobOn s 126 = none) := by decide +kernel

theorem witness_TwinMismatches_decision :
    (∀ v ∈ [0, 2 ^ 63], let s := mismState (BitVec.ofNat 64 v) (job .decide);
      let x : Image := { img 1 2 with home := [15], cores := [126, 127] };
      s.serac.mism = [⟨15, 3, 0⟩] ∧ s.serac.lost = [] ∧ jobOn s 126 = some (job .decide) ∧ s.rime.jobs = [job .decide] ∧
      imgOf s (job .decide).run = some x ∧ jobServed s x = true ∧ (job .decide).phase = .decide ∧
      rdb s Reg.SERAC_PAIR_SUSPECT 63 = (v != 0) ∧ fallbackOf s (job .decide) = some (img 2 0) ∧
      (img 2 0).id ≠ (job .decide).image ∧ (job .decide).cancelled = false ∧ (job .decide).rerunPair = none ∧
      (job .decide).hadMismatch = false ∧
      6 * nowN s + wcetRem x 0 * imgDiv s x ≤ 6 * (job .decide).deadline ∧ (x.kernels[0]?).isSome = true ∧
      (∀ h ∈ x.home, h < 16) ∧ (∀ k ∈ x.sems, k < 256) ∧ (∀ k ∈ x.cores, k < 128 ∧ running s k = false) ∧
      s.serac.slice = none ∧ s.rime.logCfg = none) := by
  decide +kernel

/-- Task 31 on, with one release and one completion or none in its window, which is now. -/
def taskState (l : List Nat) (misses : Word) : State :=
  { up [(Reg.TASK_LIMITS 31, 1 <<< 58 ||| 1 <<< 42), (Reg.TASK_STATE 31, misses <<< 16)] with
    serac := { tasks := [(31, { live := true, releases := l, completions := l })] } }

theorem witness_TaskWindows :
    (∀ l ∈ [[], [0]], ∀ m ∈ [(0 : Nat), 254], let s := taskState l (BitVec.ofNat 64 m);
      taskOn s 31 = true ∧ (getTask s 31).live = true ∧
      (taskOffset s 31 + (getTask s 31).win * taskPeriod s 31) * 1000 + taskBudget s 31 * 1000 ≤ nowN s ∧
      s.serac.lost = [] ∧ Tab.find s.serac.waitGood 31 = none ∧
      ((getTask s 31).releases.filter (fun u => decide (0 ≤ u ∧ u ≤ 0 + taskRelTol s 31 * 1000))).length = l.length ∧
      rdb s (Reg.TASK_STATE 31) 27 = false ∧ rdf s (Reg.TASK_STATE 31) 23 16 = m ∧
      taskMissLimit s 31 ≤ m + 1 ∧ taskOffset s 31 * 1000 ≤ nowN s ∧ s.serac.slice = none) ∧
    (let s : State := { taskState [] 0 with serac := { (taskState [] 0).serac with
        slice := some ⟨0, 5, 9, [(Reg.DIE_MEM_CTL 0, 1)]⟩ } };
      s.serac.slice = some ⟨0, 5, 9, [(Reg.DIE_MEM_CTL 0, 1)]⟩ ∧ taskOn s 31 = true ∧ (getTask s 31).live = true ∧
      ([(Reg.DIE_MEM_CTL 0, (1 : Word))].map (·.1)).Nodup ∧
      Reg.SERAC_ST_ABANDON ∉ [(Reg.DIE_MEM_CTL 0, (1 : Word))].map (·.1)) := by decide +kernel

/-- A self-test of core 127 in flight, and its slice if it runs. -/
def testState (n : Nat) (periodic : Bool) (l : List (Nat × Word)) (sl : Option Slice) (s : State) : State :=
  let o : LongOp := ⟨9, ⟨0, 0, 9⟩, .selftest 0 n 0 0 periodic, 0, false, [], [], false, false⟩
  { s with regs := l.foldl (fun t e => Tab.set t e.1 e.2) s.regs, rime := { longs := [o] }, serac := { s.serac with slice := sl } }

theorem witness_SelfTestAndRails :
    (let s := testState 127 false [(Reg.CORE_STATUS 127, 0)] none (up []);
      let o : LongOp := ⟨9, ⟨0, 0, 9⟩, .selftest 0 127 0 0 false, 0, false, [], [], false, false⟩;
      s.serac.slice = none ∧ selftestOp s = some o ∧ nextSlice s o = some (0, 127) ∧ running s 127 = false ∧
      windowOpen s = false ∧ windowClear s = true) ∧
    (let s := testState 127 false [(Reg.TASK_LIMITS 31, 1 <<< 58), (Reg.TASK_TIMING 31, 1000), (Reg.CORE_STATUS 127, 0)] none
        (taskState [] 0);
      let o : LongOp := ⟨9, ⟨0, 0, 9⟩, .selftest 0 127 0 0 false, 0, false, [], [], false, false⟩;
      s.serac.slice = none ∧ selftestOp s = some o ∧ nextSlice s o = some (0, 127) ∧ running s 127 = false ∧
      windowOpen s = true ∧ rdn s Reg.SERAC_ST_DEFER < 2 ^ 32 - 1) ∧
    (let s := testState 127 true [] (some ⟨0, 127, 9, []⟩) (up []);
      let o : LongOp := ⟨9, ⟨0, 0, 9⟩, .selftest 0 127 0 0 true, 0, false, [], [], false, false⟩;
      s.serac.slice = some ⟨0, 127, o.pid, []⟩ ∧ longOf s o.pid = some o ∧ o.suspendReqs = [] ∧ o.cancelled = false) ∧
    selftestOp (up []) = none ∧
    (let s : State := { st [] with serac := { injWait := [9] } };
      s.serac.injWait.contains 9 = true ∧ s.power.boot ≠ .ready) ∧
    (∀ n ∈ [2, 3], ∀ r ∈ [3, 4, 15], let s : State := { up [] with serac := { railCnt := [(r, n)] } };
      s.power.boot = .ready ∧ Tab.get 0 s.serac.railCnt r = n ∧ railOut s r 0 = true ∧
      railOut s r (railNominal s r) = false) := by decide +kernel

/-- The device with one fault event for Serac-A. -/
def eventState (ev : FaultEv) (l : List (Nat × Word)) : State := { up l with serac := { pend := [ev] } }

theorem witness_RestartsAndReturn :
    (∀ ev ∈ [FaultEv.package 0x6B, .die 3 0x6B, .class0], let s := eventState ev [(Reg.DRIFT_STATUS, 16)];
      s.serac.pend = [ev] ∧ s.serac.lost = [] ∧ s.serac.devRestart = false ∧ s.power.boot = .ready ∧
      s.serac.stayOut = [] ∧ s.serac.restarting = [] ∧ Tab.get [] s.serac.dieHist 3 = [] ∧
      rdb s Reg.DRIFT_STATUS 4 = true) ∧
    (let s : State := { up [] with serac := { restarting := [3] } };
      s.serac.restarting = [3] ∧ (getDie s 3).held = [] ∧ s.serac.stayOut = [] ∧ s.serac.devRestart = false) ∧
    (let s : State := { up [] with serac := { devRestart := true }, power := { boot := .started } };
      s.serac.devRestart = true ∧ (firmwareBoot (loadSettings s)).power.boot ≠ .started) ∧
    (let s : State := { up [(Reg.SERAC_INJ_RESULT, 0x23C)] with
        cores := [(127, { inService := false })], serac := { out := [.core 127], passed := [.core 127] } };
      serving s 0 = true ∧ s.rime.jobs = [] ∧ s.serac.out = [.core 127] ∧ mayReturn s (.core 127) = true) := by
  decide +kernel

/-! ### Baseth, the host interface and the management network (10, 11, 12): hypotheses met -/

/-- The flit with LSEQ `q` for this device. -/
def flitAt (q : Nat) (crcOk : Bool) : Flit := ⟨q, 0, false, false, 0, 1, 0, 5, 0, false, false, false, 0, [], 0, crcOk⟩

/-- Port 7 up with some lanes, after the last LSEQ before the wrap. -/
def portState (lanes : Nat) (x : PortSt) : State :=
  { up [(Reg.PORT_STATUS 7, BitVec.ofNat 64 (1 + 4 * lanes)), (Reg.BASETH_STATUS, 1), (Reg.BASETH_COORD, 0)] with
    baseth := { ports := [(7, x)], noFm := false } }

theorem witness_Links_flits :
    (let s := portState 15 { rxLast := 4095, nakSent := true };
      portUp s 7 = true ∧ (getPort s 7).training = false ∧ (getPort s 7).vcq = [] ∧ (flitAt 0 true).dst = ownId s ∧
      (flitAt 0 true).lseq = ((getPort s 7).rxLast + 1) % 4096) ∧
    (let s := portState 15 { rxLast := 4095 };
      (getPort s 7).failedOnce = none ∧ (getPort s 7).nakSent = false ∧ (flitAt 4095 true).lseq ≠ (4095 + 1) % 4096) ∧
    (∀ lanes ∈ [7, 3], let s := portState lanes { failedOnce := some 0 };
      (getPort s 7).failedOnce = some 0 ∧ Nat.testBit (portLanes s 7) 0 = true ∧ decide (2 < laneCount (portLanes s 7)) = (lanes == 7) ∧
      rdb s (Reg.PORT_STATUS 7) 1 = false ∧ (getPort s 7).replay = []) := by decide +kernel

theorem witness_Links_training :
    (let s := portState 15 { training := true, replay := [flitAt 5 true] };
      (getPort s 7).training = true ∧ (getPort s 7).vcq = []) ∧
    (let s := portState 15 {}; portUp s 7 = true ∧ (getPort s 7).replay = [] ∧ (getPort s 7).vcq = []) ∧
    (let s := up [(Reg.BASETH_CTL, 1), (Reg.PORT_CTL 7, 1)];
      rdb s Reg.BASETH_CTL 0 = true ∧ rdb s (Reg.PORT_CTL 7) 0 = true ∧ rdf s (Reg.PORT_CTL 7) 2 1 = 0 ∧
      portUp s 7 = false ∧ (getPort s 7).down = false) := by decide +kernel

theorem witness_Links_plans (s : State) : ∃ h h', h % 2 ^ 32 = ownHash s ∧ h' % 2 ^ 32 ≠ ownHash s := by
  have : ownHash s < 2 ^ 32 := Nat.mod_lt _ (by decide)
  exact ⟨ownHash s, (ownHash s + 1) % 2 ^ 32, by omega, by omega⟩

/-- Lane 3 of port 7 returns by 5000. -/
def ret0 (e : Option Word) : ReturnSt := { lanes := 8, whole := false, deadline := 5000, committed := e }

theorem witness_Links_returns :
    (let s := portState 15 {}; fabricManaged s = true ∧ (getPort s 7).ret = none ∧ portUp s 7 = !false) ∧
    (let s := up [(Reg.PORT_STATUS 7, 0x21D)]; 8 &&& rdf s (Reg.PORT_STATUS 7) 9 6 ≠ 0) ∧
    (let s := portState 7 { ret := some (ret0 none) };
      (getPort s 7).ret = some (ret0 none) ∧ nowN s ≤ (ret0 none).deadline.toNat ∧ (5000 : Word).toNat ≤ (ret0 none).deadline.toNat ∧
      (ret0 none).deadline.toNat < (5001 : Word).toNat) ∧
    (let s := portState 7 { ret := some { ret0 none with deadline := 0 } };
      (getPort s 7).ret = some { ret0 none with deadline := 0 } ∧ (0 : Word).toNat ≤ nowN s) ∧
    (let s := portState 7 { ret := some (ret0 (some 0)) };
      (getPort s 7).ret = some (ret0 (some 0)) ∧ (0 : Word).toNat ≤ nowN s ∧ nowN s ≤ (0 : Word).toNat + 2000 ∧
      (getPort s 7).vcq = [] ∧ (ret0 (some 0)).lanes < 16) ∧
    (let s : State := wrn (portState 7 { ret := some (ret0 (some 0)) }) Reg.SNOW_NS 2000;
      (getPort s 7).ret = some (ret0 (some 0)) ∧ (0 : Word).toNat + 2000 ≤ nowN s) := by decide +kernel

/-- A device at (0, 0, 0) that runs its fabric manager and knows no other. -/
def fmState (ctl : Word) : State :=
  { up [(Reg.BASETH_CTL, ctl), (Reg.BASETH_STATUS, 5)] with baseth := { plan := { enable := true }, noFm := false } }

theorem witness_FabricAndConduits_managers :
    (let s := fmState 3; rdb s Reg.BASETH_CTL 0 = true ∧ live s 2 = true ∧ rdb s Reg.BASETH_CTL 1 = true ∧
      0 < s.baseth.plan.dx ∧ 0 < s.baseth.plan.dy ∧ 0 < s.baseth.plan.dz ∧ s.rime.jobs = []) ∧
    (let s := fmState 1; rdb s Reg.BASETH_CTL 1 = false ∧ ¬ (1 < s.baseth.plan.dx)) ∧
    (let s := wrn (fmState 3) Reg.SNOW_NS 50000000;
      rdb s Reg.BASETH_STATUS 2 = true ∧ s.baseth.fmHeard + 50000000 ≤ nowN s ∧ live s 2 = true) ∧
    (let s := fmState 3; fabricManaged s = true ∧ nowN s + 2000000 ≤ (2000000 : Word).toNat ∧
      (1999999 : Word).toNat < nowN s + 2000000 ∧ s.baseth.lastEpoch = none) ∧
    (let s : State := { fmState 3 with baseth := { next := some ([], 0), lastEpoch := some 0 } };
      s.baseth.next = some ([], 0) ∧ (0 : Word).toNat ≤ nowN s) ∧
    (let s : State := { wrn (fmState 3) Reg.SNOW_NS 1000000 with baseth := { lastEpoch := some 0 } };
      s.baseth.lastEpoch = some 0 ∧ (0 : Word).toNat + 1000000 ≤ nowN s) := by decide +kernel

/-- Conduit 63 enabled, a sender or a receiver of two slots of 64 bytes at 0x10010002000, with key slot 31. -/
def cndState (send : Bool) (sem credits : Word) : State :=
  let s := up [(Reg.CND_CTL 63, if send then 3 else 1), (Reg.CND_STATUS 63, 1 ||| credits <<< 10),
    (Reg.CND_LOCAL 63, 0x10010002000), (Reg.CND_REMOTE 63, 0x10010002000), (Reg.CND_SLOT 63, 2 <<< 24 ||| 64),
    (Reg.CND_PEER 63, 31 <<< 24), (Reg.CND_COUNT 63, 0), (semReg (.cluster 0 0), sem)]
  { s with baseth := { keys := [(31, ⟨0, 0⟩)], cnd := [(63, { unacked := 1 })] } }

theorem witness_FabricAndConduits_conduits :
    (let s := cndState true 1 1; conduitOn s 63 = true ∧ rdb s (Reg.CND_CTL 63) 1 = true ∧
      Tab.find s.baseth.keys (rdf s (Reg.CND_PEER 63) 28 24) = some ⟨0, 0⟩ ∧ 1 ≤ semGet s (cndSem s 63 false) ∧
      rdf s (Reg.CND_STATUS 63) 17 10 = 1 ∧ rdf s (Reg.CND_STATUS 63) 17 10 < rdf s (Reg.CND_SLOT 63) 31 24 ∧
      (getCnd s 63).hold = false ∧ rdf s (Reg.CND_SLOT 63) 23 0 = 64 ∧ rdn s (Reg.CND_COUNT 63) < 2 ^ 64 - 1 ∧
      0 < (getCnd s 63).unacked ∧ s.rime.jobs = []) ∧
    (let s := cndState false 1 0; conduitOn s 63 = true ∧ rdb s (Reg.CND_CTL 63) 1 = false ∧
      1 ≤ semGet s (cndSem s 63 true) ∧ Tab.find s.host.dirty (rdf s (Reg.CND_PEER 63) 23 19) = none) := by decide +kernel

theorem witness_FabricAndConduits_reach :
    Reach (cndState true 1 1) .conduit (0x10010002000 + 1 * 64) (64 / 8) :=
  reach_whole (by decide) (by decide) (by decide) (by decide)

theorem witness_FabricAndConduits_messages :
    (∃ msg : CndMsg, msg.slot = 1 ∧ msg.offset = 0 ∧ msg.len = 64 ∧ msg.counter = 1 ∧ msg.last = true ∧
      Config.gcmTag 0 msg.counter.toNat (cndAad 0 0 0 msg) msg.cipher = msg.tag) ∧
    (let s := cndState false 1 0;
      (1 : Word).toNat = rdn s (Reg.CND_COUNT 63) + 1 ∧ 1 < rdf s (Reg.CND_SLOT 63) 31 24 ∧
      0 + 64 ≤ rdf s (Reg.CND_SLOT 63) 23 0 ∧ ownId s = 0 ∧ rdf s (Reg.CND_PEER 63) 15 0 = 0) :=
  ⟨⟨⟨0, 64, true, 1, 1, [], Config.gcmTag 0 1 (cndAad 0 0 0 ⟨0, 64, true, 1, 1, [], 0, []⟩) [], []⟩,
    rfl, rfl, rfl, rfl, rfl, rfl⟩, by decide +kernel⟩

/-- The manager's instance in a state, with an entry of the physical function's aperture. -/
def hostState (inst st : Nat) (wr valid : Bool) : State :=
  { up [(Reg.INST_STATE 16 inst, BitVec.ofNat 64 st), (Reg.MBX_STATUS 16, 0)] with
    host := { apts := [(inst * 64 + 63, ⟨0x10010400000, wr, valid⟩)] } }

theorem witness_MailboxOpen : MailboxOpen (hostState 16 1 true true) ⟨16, 7⟩ := by unfold MailboxOpen; decide

theorem witness_InstancesAndApertures :
    (∀ v < 5, let s := hostState 15 v true true; let m : Mbx := ⟨15, 7⟩;
      rdb s (Reg.MBX_STATUS 16) 0 = false ∧ mbxBusy s = false ∧ m.inst ≤ 16 ∧ instState s m.inst = v ∧ s.rime.pend = [] ∧
      s.rime.longs = [] ∧ drainedFn s 15 = true ∧ serving s 3 = true) ∧
    (let s := hostState 16 1 true true; let w2 : Word := 0x3010010400000;
      fld w2 63 50 = 0 ∧ fld w2 47 0 % 0x400000 = 0 ∧ dramBase ≤ fld w2 47 0 ∧ fld w2 47 0 + 0x400000 ≤ 0x12000000000 ∧
      bit w2 49 = true ∧ aptPermitted s 16 (fld w2 47 0) = true ∧ aptPermitted s 15 (fld w2 47 0) = false) ∧
    (∀ wr ∈ [false, true], let s := hostState 15 2 wr true;
      (aptOf s 15 (0xFFFFFFF / 0x400000)) = ⟨0x10010400000, wr, true⟩ ∧ Tab.find s.host.dirty 15 = none) ∧
    (let s := hostState 15 2 true false; (aptOf s 15 (0xFFFFFFF / 0x400000)).valid = false) ∧
    (let s : State := { hostState 15 2 true true with host := { dirty := [(15, 0x10010800000)] } };
      Tab.find s.host.dirty 15 = some 0x10010800000 ∧ (0x107FFFF8 : Nat) + 0x10000000000 < 0x10010800000) := by decide +kernel

theorem witness_InstancesAndApertures_reach : Reach (hostState 15 2 true true) (.host 15) (0x10010400000 + 0x3FFFF8) 1 :=
  reach_whole (by decide) (by decide) (by decide) (by decide)

theorem witness_MailboxRequests :
    (let s := hostState 16 2 true true; fabricManaged s = false ∧ fld 0xFF 63 8 = 0 ∧ 0x10010001000 % 4096 = 0 ∧
      dramBase ≤ 0x11FFFFC0000 ∧ watermark s ≤ 0x11FFFFC0000 ∧ 0x11FFFFC0000 + 0x40000 ≤ 0x12000000000 ∧
      Tab.find s.host.dirty 16 = none) ∧
    (let s : State := { hostState 16 2 true true with baseth := { noFm := false } };
      fabricManaged (wrn s Reg.BASETH_STATUS 1) = true) ∧
    (∀ o ∈ [15, 16], let i : Image := { img 1 2 with owner := 16, regions := [⟨0x10010000000, 0x10000, true⟩] };
      let s : State := { hostState 16 2 true true with rime := { images := [i] } };
      let ws : List Word := [0x10010001000, 0, 0x1000040, BitVec.ofNat 64 (o <<< 19), 3];
      bindOk ws = true ∧ bindPermitted s 16 ws = (o == 16)) ∧
    (let s : State := { hostState 16 2 true true with host := { dirty := [(16, 0x10010040000)] } };
      Tab.find s.host.dirty 16 = some 0x10010040000 ∧ 32767 + 1 ≤ 32768 ∧ Tab.find s.host.dirty 31 = none ∧
      0x1000F000000 + 8 ≤ 0x10010040000 + 8 * 32767) := by decide +kernel

theorem witness_MailboxRequests_reach :
    Reach { hostState 16 2 true true with host := { dirty := [(16, 0x10010040000)] } } (.rime 3 .normal) 0x10010020000 4096 :=
  reach_whole (by decide) (by decide) (by decide) (by decide)

/-- A session 2 under root 1, authenticated or not. -/
def sesState (auth : Bool) (l : List (Nat × Word)) : State := { up l with sec := { ses := [(2, ⟨true, auth, 1, 0⟩)] } }

theorem witness_SpdmResponder :
    (let s := sesState false []; mgtUp s = true ∧ live s 3 = true ∧ (getSes s 2).isSome = true ∧
      getSes s 2 = some ⟨true, false, 1, 0⟩ ∧ getSes s 1 = none ∧ s.sec.ses.length < 2 ∧
      (measurement s 1).isSome = true ∧ (measurement s 6).isSome = true ∧ measurement s 7 = none ∧ measurement s 16 = none) ∧
    (let s := sesState true []; getSes s 2 = some ⟨true, true, 1, 0⟩) ∧
    (let s : State := { up [] with sec := { ses := [(1, ⟨true, true, 0, 0⟩), (2, ⟨true, true, 1, 0⟩)] } };
      2 ≤ s.sec.ses.length ∧ getSes s 3 = none) := by decide

theorem witness_SpdmResponder_finish (h : Config.spdmVerify 0#384 [] [] = true) :
    let s : State := { sesState false [] with power := { (sesState false []).power with nvm := { roots := [0, 0] } } };
    (rootFor s [] []).isSome = true := by
  simp [rootFor, h, List.range, List.range.loop]

theorem witness_ManagementCommands :
    (let s := sesState true [(Reg.FROST_STATUS, 3), (Reg.FROST_CTL, 16), (Reg.SEC_TENANT, 0)];
      mgtUp s = true ∧ sesAuth s 2 = true ∧ sesAuth s 1 = false ∧ live s 3 = true ∧ tenantState s = 0 ∧
      regionWorn s 0 = false ∧ regionWorn s 1 = false ∧ rdb s Reg.FROST_STATUS 0 = true ∧ rdb s Reg.FROST_STATUS 1 = true ∧
      rdb s Reg.FROST_CTL 4 = true ∧ (recOfAge s 0).isSome = true ∧ recOfAge s 1 = none ∧
      s.power.nvm.pchPassed.contains (7, 31) = false) ∧
    (∀ t ∈ [1, 2], let s : State := { sesState true [(Reg.SEC_TENANT, BitVec.ofNat 64 t)] with
        rime := { images := [img 1 2] } };
      tenantState s = t ∧ (imgOf s 1).isSome = true ∧ imgOf s 2 = none) ∧
    (let s : State := sesState true [(Reg.RIME_STATUS 3, 0)]; live s 3 = false ∧ sesAuth s 2 = true) ∧
    (let s : State := { sesState true [] with power := { boot := .ready, nvm := { pchPassed := [(7, 31)] } } };
      s.power.nvm.pchPassed.contains (7, 31) = true ∧ regionWorn s 1 = false) ∧
    (dramBase + 0x10000000 ≤ 0x10010000000 ∧ 0x10200000000 ≤ dramBase + 0x200000000 ∧ 0x10200000000 % 0x4000000 = 0) := by
  decide +kernel

/-! ### Worlds, time, streams and the gateway (12, 13): hypotheses met -/

/-- Processor 7 in the monitor for a caller of some world, with a call and its arguments. -/
def monState (world : World) (code a0 a1 a2 : Word) (l : List (Nat × Word)) : State :=
  { up l with
    sec := { procs := [(7, ⟨.secure, 0, 3, [(10, a0), (11, a1), (12, a2), (17, code)], [], some ⟨0x1004, 1, world⟩, 0⟩)] } }

/-- `Serves`, computed. -/
def servesB (s : State) (p code : Nat) (c : SavedCtx) : Bool :=
  (getProc s p).saved == some c && live s p && inMonitor s p && procX s p 17 == code

theorem serves_of {s : State} {p code : Nat} {c : SavedCtx} (h : servesB s p code c = true) : Serves s p code c := by
  simp only [servesB, Bool.and_eq_true, beq_iff_eq] at h
  exact ⟨h.1.1.1, h.1.1.2, h.1.2, h.2⟩

theorem witness_Serves : Serves (monState .normal 0x10 0 0 0 []) 7 0x10 ⟨0x1004, 1, .normal⟩ := serves_of (by decide)

/-- ENCLn of an enclave of processor 7: its flags, its range. -/
def enclRegs (n : Nat) (flags : Nat) : List (Nat × Word) :=
  [(Reg.ENCL_A n, BitVec.ofNat 64 (flags <<< 51 ||| 7 <<< 48 ||| 0x10020000000)), (Reg.ENCL_B n, 0x2000)]

theorem witness_WorldsAndEnclaves :
    (live (up []) 7 = true ∧ inMonitor (up []) 7 = false ∧ (getProc (up []) 7).world ≠ .secure) ∧
    (∀ w ∈ [World.normal, .secure], ∀ v ∈ [(0x00, 0), (0x01, 27), (0x02, 4), (0x02, 27)],
      let s := monState w (BitVec.ofNat 64 v.1) (BitVec.ofNat 64 v.2) 0 0 [(Reg.SEC_PM_PEND, 1 <<< 27)];
      servesB s 7 v.1 ⟨0x1004, 1, w⟩ = true ∧ procX s 7 10 = v.2) ∧
    (∀ v ∈ [0x2000, 0x2001], let s := monState .normal 0x10 0x10020000000 (BitVec.ofNat 64 v) 0 (enclRegs 0 0);
      servesB s 7 0x10 ⟨0x1004, 1, .normal⟩ = true ∧ fromEnclave ⟨0x1004, 1, .normal⟩ = none ∧
      enclFits s (procX s 7 10) (procX s 7 11) = (v == 0x2000) ∧
      (List.range 8).find? (fun k => !enclValid s k) = some 0) := by decide +kernel

theorem witness_WorldsAndEnclaves_enclave :
    (∀ f ∈ [1, 3, 7], ∀ code ∈ [0x11, 0x12, 0x13, 0x15],
      let s := monState .normal (BitVec.ofNat 64 code) 7 (if code = 0x12 then 0x1FFF else 0x10010001000) 0x1000 (enclRegs 7 f);
      servesB s 7 code ⟨0x1004, 1, .normal⟩ = true ∧ procX s 7 10 = 7 ∧ enclValid s 7 = true ∧
      enclInited s 7 = decide (3 ≤ f) ∧ enclRuns s 7 = decide (7 ≤ f) ∧ rdf s (Reg.ENCL_A 7) 50 48 = 7 ∧
      enclRange s 7 = (0x10020000000, 0x2000) ∧ enclaveAt s 0x10010001000 = none ∧ watermark s ≤ 0x10010001000 ∧
      procX s 7 12 % 4096 = 0 ∧ procX s 7 12 < 0x2000) ∧
    (let s := monState (.enclave 7) 0x14 0 0 0 (enclRegs 7 7);
      servesB s 7 0x14 ⟨0x1004, 1, .enclave 7⟩ = true ∧ fromEnclave ⟨0x1004, 1, .enclave 7⟩ = some 7) ∧
    (let s : State := { up (enclRegs 7 7) with
        sec := { procs := [(7, { world := .enclave 7 })], encl := [(7, { caller := some ⟨0x1004, 1, .normal⟩ })] } };
      (getProc s 7).world = .enclave 7 ∧ (getEncl s 7).caller = some ⟨0x1004, 1, .normal⟩ ∧ live s 7 = true) := by
  decide +kernel

theorem witness_WorldsAndEnclaves_page :
    Reach (monState .normal 0x11 7 0x10010001000 0x1000 (enclRegs 7 1)) (.rime 7 .secure) 0x10010001000 512 :=
  reach_whole (by decide +kernel) (by decide) (by decide) (by decide)

/-- Snowline free of compare units and queued starts. -/
theorem witness_NothingTimed : NothingTimed (up ((List.range 16).map (fun u => (Reg.CMP_STATUS u, 0)))) := by
  unfold NothingTimed
  decide +kernel

theorem witness_Snowline :
    (let s := up [(Reg.SNOW_STATUS, 0), (Reg.SNOW_CTL, 1)]; ∀ o ∈ [0, 0x28, 0x30, 0x38],
      mayWrite s (.rime 1 .normal) .snow 0 o = true ∧ mayWrite s (.rime 0 .normal) .snow 0 o = false ∧
      holdover s = false ∧ rdb s Reg.SNOW_CTL 0 = true ∧ live s 1 = true ∧ rdb s Reg.SNOW_STATUS 0 = false) ∧
    ((0x03FF7CED9169 : Word).toNat = 0x03FF7CED9169 ∧ (0x040083126E97 : Word).toNat = 0x040083126E97) ∧
    (let s := up [(Reg.SNOW_STATUS, 3)]; holdover s = true ∧ rdb s Reg.SNOW_STATUS 0 = true) ∧
    (∀ n ∈ [0, 1, 7, 8], let e : CapEnt := ⟨0, 0xFFFF, true⟩;
      let s : State := { up [(Reg.CAP_CFG 7, 3), (Reg.CAP_OVF 7, 0)] with snow := { caps := [(7, List.replicate n e)] } };
      rdf s (Reg.CAP_CFG 7) 1 0 = 3 ∧ Tab.find s.lines 35 = none ∧ (Tab.get [] s.snow.caps 7).length = n ∧
      visible s (.rime 1 .normal) (Reg.CAP_INFO 7) = true) ∧
    (let s := up [(Reg.CAP_CFG 7, 1)]; rdf s (Reg.CAP_CFG 7) 1 0 = 1) := by decide +kernel

/-- A timed job of image 1. -/
def timedJob : Job := { job .waiting with timed := some 100000 }

theorem witness_TimedEvents :
    (∀ late ∈ [[], [11]], ∀ period ∈ [0, 1], let s : State := { up [(Reg.CMP_STATUS 11, 1),
        (Reg.CMP_TARGET 11, BitVec.ofNat 64 (period <<< 32)), (Reg.CMP_CTL 11, BitVec.ofNat 64 (4 * period))] with
        snow := { late := late } };
      cmpWriter s (.rime 1 .normal) 11 = true ∧ unitDue s 11 = true ∧ Tab.find s.lines 27 = none ∧
      rdb s (Reg.CMP_CTL 11) 2 = (period == 1) ∧
      (period = 1 → ctrDiff (now32 s) (rdf s (Reg.CMP_TARGET 11) 31 0) < rdf s (Reg.CMP_TARGET 11) 63 32)) ∧
    unitDue (up [(Reg.CMP_STATUS 11, 0)]) 11 = false ∧
    (∀ v ∈ [0, 1], let e : TtqEnt := ⟨0, 1 <<< 127, true⟩;
      let s : State := { up [(Reg.CORE_STATUS 127, BitVec.ofNat 64 v), (Reg.CMP_STATUS 15, 0)] with snow := { ttq := [(3, [e])] } };
      unitDue s 15 = false ∧ Tab.get [] s.snow.ttq 3 = [e] ∧ reached (now32 s) e.target.toNat = true ∧ s.rime.jobs = [] ∧
      (∀ n < 128, e.mask.getLsbD n = true → running s n = (v == 1) ∧ (getCore s n).inService = true)) ∧
    (∀ n ∈ [15, 16], let s : State := { up [] with snow := { ttq := [(3, List.replicate n ⟨0, 0, false⟩)] } };
      mayWrite s (.rime 0 .normal) .snow 0 (0x628 + 3 * 0x40) = true ∧
      mayWrite s (.rime 1 .normal) .snow 0 (0x628 + 3 * 0x40) = false ∧ (Tab.get [] s.snow.ttq 3).length = n) := by decide +kernel

theorem witness_TimedEvents_jobs :
    (let s := jobState 0x44 [] [timedJob] {};
      jobOf s 5 = some timedJob ∧ jobImg s timedJob = some (img 1 2) ∧ mayPrepare s timedJob (img 1 2) = true ∧
      timedJob.ent.prio < 4 ∧ ((img 1 2).kernels[0]?).isSome = true) ∧
    (let s := jobState 0x01 [1, 0] [job .running] {}; mayPrepare s (job .running) (img 1 2) = false) := by decide +kernel

/-- Stream 127 of RGB lines of two pixels by two, two buffers at 0x10010010000. -/
def streamCfg0 : StreamCfg := ⟨0x2A, 2, 2, 0, 0, 2, 2, 1, 2, 2, false, 1, 0x10010010000, 4096, 2, 64, 1024, 0⟩

/-- A device with stream 127 declared and enabled, and its owner's image. -/
def streamState (rt : StreamRt) : State :=
  { up [(Reg.STR_CTL, 0x8000), (Reg.RX_HDR_ERR 15, 0xFFFF), (Reg.STR_STATUS 127, 0)] with
    rime := { images := [{ img 1 2 with regions := [⟨0x10010000000, 0x100000, true⟩] }] }
    streams := { cfg := [(127, streamCfg0)], rt := [(127, rt)] } }

theorem witness_Streams :
    (let s := streamState {}; let i : Image := { img 1 2 with regions := [⟨0x10010000000, 0x100000, true⟩] };
      rdb s Reg.STR_CTL 15 = true ∧ Tab.find s.streams.cfg 127 = some streamCfg0 ∧ 0x2B ≠ streamCfg0.dt ∧
      dtKnown streamCfg0.dt = true ∧ streamOwner s 127 streamCfg0 = some i ∧ (getStream s 127).open_ = false ∧
      (getWord s 0x10010010000).v.getLsbD 0 = false ∧ Tab.find s.lines 15 = none ∧ Tab.find s.host.dirty i.owner = none) ∧
    (let s := withWords (streamState {}) 0x10010010000 [1]; (getStream s 127).open_ = false ∧
      (getWord s 0x10010010000).v.getLsbD 0 = true) ∧
    (∀ n ∈ [0, 1, 2], let s := streamState { open_ := true, lines := List.replicate n ([0, 0], true) };
      (getStream s 127).open_ = true ∧ (getStream s 127).drop = false ∧ (getStream s 127).lines.length = n ∧
      (n < streamCfg0.inH ↔ n ≠ 2) ∧ 1 ≤ streamCfg0.count ∧ (getStream s 127).frame < 2 ^ 32) ∧
    (let s := streamState { open_ := true, drop := true }; (getStream s 127).open_ = true ∧ (getStream s 127).drop = true) := by
  decide +kernel

theorem witness_Streams_reach : Reach (streamState {}) .stream 0x10010010000 1 :=
  reach_whole (by decide +kernel) (by decide) (by decide) (by decide)

/-- A ring of firmware at 0x10010020000, of two buffers. -/
def ring0 : RingSt := ⟨0x10010020000, 16384, 2, 1, 0, 0⟩

/-- A frame from address 1 to address 2. -/
def frame0 (poison ptp : Bool) : EthFrame := ⟨2, 1, 5, 0, 0, 0, [0], poison, ptp⟩

/-- A gateway with ring0 on every queue kind, its next buffer owned or not. -/
def gwState (own : Word) (g : GatewaySt) : State :=
  { withWords (up []) 0x10010024000 [own, 1 <<< 16, 0x10] with gateway := { g with rx := [(7, ring0)], tx := [(7, ring0)] } }

theorem witness_Gateway_ring (own : Word) (g : GatewaySt) (h : own = 0 ∨ own = 1) :
    ringLabel (gwState own g) ring0 = some fwLabel ∧ Reach (gwState own g) .stream (ringBuf ring0) 5 ∧
      Tab.find (gwState own g).host.dirty fwLabel.inst = none ∧ Tab.find (gwState own g).lines 59 = none := by
  refine ⟨rfl, ?_, rfl, rfl⟩
  rcases h with rfl | rfl
  · exact reach_whole (show die0Whole (gwState 0 {}) = true by decide) (by decide) (by decide) (by decide)
  · exact reach_whole (show die0Whole (gwState 1 {}) = true by decide) (by decide) (by decide) (by decide)

theorem witness_Gateway_frames :
    (let s : State := gwState 0 { fdb := [⟨2, 5, 11⟩], vlans := [(5, [0, 11])] }; let f := frame0 false false;
      f.ptp = false ∧ (vlanPorts s f.vlan).contains 0 = true ∧ (vlanPorts s f.vlan).filter (· == 11) = [11] ∧
      filterPass s f = true ∧ Tab.find s.gateway.frer f.streamId = none ∧ isGroup f.dst = false ∧ isGroup f.src = false ∧
      f.src ≠ f.dst ∧ s.gateway.fdb.length < 8192 ∧
      s.gateway.fdb.find? (fun e => e.mac == f.dst && e.vlan == f.vlan) = some ⟨f.dst, f.vlan, 11⟩) ∧
    (∀ o ∈ [0, 1], let s := gwState (BitVec.ofNat 64 o) {};
      Tab.find s.gateway.rx 7 = some ring0 ∧ Tab.find s.gateway.tx 7 = some ring0 ∧ Tab.find s.gateway.sending 7 = none ∧
      (getWord s (ringBuf ring0)).v.getLsbD 0 = (o == 1)) ∧
    (∀ v ∈ [(false, false), (true, false), (false, true)], let f := frame0 v.1 v.2;
      let s := gwState 1 { egress := [(12, [f])], sending := [(7, (f, ringBuf ring0))], tsq := [(12, List.replicate 15 ⟨0, 0, 0⟩)] };
      nextFrame s 12 = some f ∧ (Tab.get [] s.gateway.tsq 12).length < 16 ∧
      Tab.find s.gateway.sending 7 = some (f, ringBuf ring0)) ∧
    rimeOf (.rime 1 .normal) = some 1 ∧ rimeOf (.rime 0 .normal) ≠ some 1 ∧
    (∀ v ∈ [0, 1], let g : GateList := ⟨[(1, 1), (0, 1)], 0, 2, 1, BitVec.ofNat 64 v⟩; let s := gwState 0 { gates := [(12, g)] };
      Tab.find s.gateway.gates 12 = some g ∧ g.entries ≠ [] ∧ reached (now32 s) (g.at_.toNat % 2 ^ 32) = (v == 0)) := by
  decide +kernel

theorem witness_Gateway_can :
    (let m : CanMsg := ⟨5, true, [0]⟩; ∀ o ∈ [0, 1],
      let s := gwState (BitVec.ofNat 64 o) { can := [(7, { rx := some ring0, tx := some ring0, filters := [(5, 0x7FF)] })] };
      (getCan s 7).busOff = false ∧ (getCan s 7).rx = some ring0 ∧ (getCan s 7).tx = some ring0 ∧ (getCan s 7).sending = none ∧
      canAccept (getCan s 7) m = true ∧ canAccept (getCan s 7) { m with ident := 6 } = false ∧
      (getWord s (ringBuf ring0)).v.getLsbD 0 = (o == 1) ∧ Tab.find s.lines 43 = none ∧
      (getWord s (ringBuf ring0 + 8)).v.getLsbD 16 = true ∧
      reached (now32 s) (fld (getWord s (ringBuf ring0 + 16)).v 31 0) = false ∧
      reached (now32 (wrn s Reg.SNOW_NS 0x10)) (fld (getWord s (ringBuf ring0 + 16)).v 31 0) = true) ∧
    (let s := gwState 1 { can := [(7, { tx := some ring0, sending := some (⟨5, true, [0]⟩, ringBuf ring0) })] };
      (getCan s 7).sending = some (⟨5, true, [0]⟩, ringBuf ring0) ∧ Tab.find s.lines 51 = none) ∧
    (let s := gwState 1 { can := [(7, { busOff := true })] }; (getCan s 7).busOff = true) := by decide +kernel

/-! ### Cornice, power, settings, records, pins and debug (14, 15, 16): hypotheses met -/

/-- A display plan: one window, rings of two entries, four heads of two lines of four pixels. -/
def plan0 : DispPlan :=
  ⟨0, 0, 1, 1, [⟨0x10010000000, 0x1000000, true⟩], (0x10010100000, 1), (0x10010200000, 1), (0x10010300000, 1),
    (0x10010400000, 1), 0, List.replicate 4 ⟨true, 0x10010500000, 0x10010600000, 64, 4, 2⟩⟩

/-- Cornice enabled under the plan for the running physical instance 0. -/
def corState (words : List (Nat × Word)) (c : CorniceSt) : State :=
  let s := up [(Reg.CORNICE_CTL, 1), (Reg.INST_STATE 16 0, 2), (Reg.CORE_STATUS 128, 0), (Reg.CORE_STATUS 129, 1)]
  { words.foldl (fun t w => withWords t w.1 [w.2]) s with cornice := { c with plan := some plan0 } }

/-- `CorReads`, computed for die 0. -/
theorem corReads_of {s : State} {a n : Nat} (h : (inWin plan0 false a n && die0Whole s && !anyPoison s a n &&
    decide (a % 8 = 0) && decide (0x10010000000 ≤ a) && decide (a + 8 * ceilDiv n 8 ≤ 0x10020000000)) = true) :
    CorReads s plan0 a n := by
  simp only [Bool.and_eq_true, Bool.not_eq_true', decide_eq_true_eq] at h
  obtain ⟨⟨⟨⟨⟨h1, h2⟩, h3⟩, h4⟩, h5⟩, h6⟩ := h
  exact ⟨h1, reach_whole h2 h4 h5 h6, h3⟩

theorem witness_EventFree : ∀ map, EventFree (corState [] {}) plan0 map := by
  intro map
  cases map <;> exact ⟨by decide +kernel, by decide +kernel, by decide +kernel, by decide +kernel, by decide +kernel,
    reach_whole (by decide +kernel) (by decide +kernel) (by decide +kernel) (by decide +kernel),
    reach_whole (by decide +kernel) (by decide +kernel) (by decide +kernel) (by decide +kernel), by decide +kernel⟩

theorem witness_PassesAndJobs_rings : ∀ r ∈ [(0x10010100000, 16), (0x10010200000, 8)],
    (let s := corState [(r.1, 1)] {};
      rdb s Reg.CORNICE_CTL 0 = true ∧ instState s 0 = 2 ∧ getNum s r.1 4 ≠ getNum s (r.1 + 8) 4 ∧
      inWin plan0 true (r.1 + 8) 4 = true ∧ (inWin plan0 false r.1 16 && die0Whole s && !anyPoison s r.1 16) = true ∧
      (inWin plan0 false (r.1 + 64) (8 * r.2) && !anyPoison s (r.1 + 64) (8 * r.2)) = true ∧ s.cornice.pass = none ∧
      s.cornice.map = none ∧ Tab.find s.host.dirty 0 = none) ∧
    descOk plan0 { desc := List.replicate 16 0, phase := .binning, start := 0 } = false := by decide +kernel

theorem witness_PassesAndJobs_ring : CorReads (corState [(0x10010100000, 1)] {}) plan0 0x10010100000 16 :=
  corReads_of (by decide +kernel)

/-- A pass of one target, 32 by 32, whose growth word is at 0x10010700000, with a wait of one µs and a budget. -/
def pass0 (phase : PassPhase) : PassSt :=
  { desc := [8, 0x200020, 0x10010800000, 0, 0, 0, 0, 0, 0, 0, 0, 0, 0, 0x0001010010700000, 1, 0], phase := phase, start := 0 }

/-- A primitive. -/
def prim0 : Prim := ⟨0xFFFFFFFF, 0, []⟩

theorem witness_PassesAndJobs_passes :
    (let s := corState [] { pass := some (pass0 .tiles) };
      s.cornice.pass = some (pass0 .tiles) ∧ (pass0 .tiles).tile < (pass0 .tiles).tileCount ∧
      renderCores.find? (fun k => !running s k) = some 128 ∧ fld ((pass0 .tiles).w 0) 11 8 = 0 ∧ (pass0 .tiles).targets ≤ 4) ∧
    (let p : PassSt := { pass0 .binning with growPrim := some prim0 }; let s := corState [] { pass := some p };
      s.cornice.pass = some p ∧ p.phase = .binning ∧ p.chunks.length < 2 ^ 32 ∧ prim0.seq < 2 ^ 32) ∧
    (∀ t ∈ [0, 1000], let p := pass0 .tiles; let s := wrn (corState [] { pass := some p }) Reg.SNOW_NS (1000 * 1000 + t);
      s.cornice.pass = some p ∧ p.budget ≠ 0 ∧ p.start + p.budget * 1000 ≤ nowN s) ∧
    (∀ k ∈ [none, some 0xFFFFFFFF], let p : PassSt := { pass0 .ending with firstImm := k, status := 0 };
      p.phase = .ending ∧ p.told = false ∧ p.skipped < 2 ^ 32 ∧ p.status < 5 ∧ fld (p.w 0) 15 12 = 0 ∧ p.firstImm = k) := by
  decide +kernel

theorem witness_PassesAndJobs_grow : ∀ g ∈ [0, 0x10010000000, 0x8000000000000000], ∀ now ∈ [0, 1000],
    (let p : PassSt := { pass0 .growWait with growPrim := some prim0, grewAt := some 0 };
      let s := wrn (corState [(0x10010700000, BitVec.ofNat 64 g)] { pass := some p }) Reg.SNOW_NS now;
      s.cornice.pass = some p ∧ p.growAddr = 0x10010700000 ∧ g = getNum s p.growAddr 8 ∧ nowN s ≤ 0 + p.growWait * 1000 ∧
      (0 + p.growWait * 1000 ≤ nowN s ↔ now = 1000) ∧
      (inWin plan0 false p.growAddr 8 && die0Whole s && !anyPoison s p.growAddr 8) = true ∧
      (g = 0x10010000000 → inWin plan0 true g 0x10000 = true ∧ inWin plan0 true p.growAddr 8 = true) ∧
      rdn s Reg.CORNICE_GROWS < 2 ^ 32 - 1) := by decide +kernel

theorem witness_PassesAndJobs_events :
    (let e : EvtRec := ⟨false, 0, 0, 0, 0⟩; let s := corState [(0x10010300000, 2)] { waiting := [e] };
      s.cornice.waiting = [e] ∧ 2 ^ (evtRing plan0 false).1.2 ≤
        ctrDiff (getNum s (evtRing plan0 false).1.1 4) (getNum s ((evtRing plan0 false).1.1 + 8) 4)) ∧
    (let m : MapSt := { desc := [0, 0, 0x10010500000, 0x10010600000, 1, 0, 7, 0] };
      let s := corState [(0x10010500008, 0x7FC000000000000)] { map := some m };
      let w (i : Nat) : Nat := getNum s (fld (m.desc.getD 2 0) 47 0 + 4 * i) 4;
      s.cornice.map = some m ∧ fld (m.desc.getD 4 0) 23 0 = 1 ∧ inWin plan0 true 0x10010600000 16 = true ∧
      (inWin plan0 false 0x10010500000 32 && die0Whole s && !anyPoison s 0x10010500000 32) = true ∧
      deadRay [w 0, w 1, w 2, w 4, w 5, w 6, 0x7FC00000, w 7] = true ∧
      (evtRing plan0 true).1.1 + 64 + 2 ^ (evtRing plan0 true).1.2 * 32 ≤ 0x10010600000) := by decide +kernel

/-- Core 135 owns tile 0, with one batch to come and one fetched. -/
def rc0 (work : List Batch) (released : Bool) : CorniceSt :=
  let x : Batch := ⟨1, 0, [(31, 31, true)], [], [], []⟩
  { pass := some { pass0 .tiles with draws := [(0x10010A00000, 65, 0)] }
    rcs := [(7, { tile := some 0, work := work, released := released, batch := some x, group := some (0, 64, 1) })] }

theorem witness_RenderInstructions :
    (∀ i ∈ [0, 64], let s := corState [] (rc0 [] false);
      let p : PassSt := { pass0 .tiles with draws := [(0x10010A00000, 65, 0)] };
      s.cornice.pass = some p ∧ s.cornice.plan = some plan0 ∧
      nextGroup p (p.draws.length + 1) (0, i) = some (0, i, if i = 0 then 64 else 1) ∧
      nextGroup p (p.draws.length + 1) (0, 65) = none ∧ inWin plan0 false (0x10010A00000 + 4 * 64) 4 = true) ∧
    (let x : Batch := ⟨1, 0, [(31, 31, true)], [], [], []⟩; ∀ rel ∈ [false, true], ∀ w ∈ [[], [x]], let s := corState [] (rc0 w rel);
      (getRc s 135).tile = some 0 ∧ (getRc s 135).work = w ∧ (getRc s 135).batch = some x ∧ (getRc s 135).released = rel ∧
      (getRc s 135).group = some (0, 64, 1) ∧ (readS s 135 2).p = false ∧ (readV s 135 31).p = 0 ∧ (getCore s 135).qv = []) ∧
    deadRay [0, 0, 0, 0, 0, 0, 0x7FC00000, 0] = true := by decide +kernel

theorem witness_RenderInstructions_tex :
    (let s : State := { corState [] { pass := some { pass0 .tiles with desc := (pass0 .tiles).desc.set 11 0x0001010010900000 } } with
        cores := [(135, { v := [(0, ⟨BitVec.ofNat 2048 (sumBy (fun j => 0x7FC00000 * 2 ^ (32 * j)) (List.range 64)), 0⟩)] })] };
      (s.cornice.pass.map (fun p => p.tex)) = some (0x10010900000, 1) ∧
      (readV s 135 0).p = 0 ∧ (∀ j < 64, fp32.decode ((vLanes s 135 0).getD j 0) = .nan) ∧
      (texOf [0x10010B00000, 0x1000010001, 0, 0]).ok = true ∧
      (inWin plan0 false 0x10010900000 32 && die0Whole s) = true) := by decide +kernel

theorem witness_DisplayHeads :
    (∀ n ∈ [none, some (0x10010600000, (7 : Word))], let s := corState [] { heads := [(3, { next := n })] };
      (getHead s 3).next = n ∧ headCfg s 3 = some ⟨true, 0x10010500000, 0x10010600000, 64, 4, 2⟩ ∧
      (getHead s 3).altReq = false) ∧
    (let s := corState [] { heads := [(3, { altReq := true })] }; (getHead s 3).altReq = true) ∧
    (let s := wrn (corState [] {}) (Reg.HEAD_SCAN 3) 0x10010500000;
      let a := rdn s (Reg.HEAD_SCAN 3) + 1 * 64; dieOfAddr a = some 0 ∧ (getDie s 0).linksClosed = false ∧
      inWin plan0 false a (4 * 4) = true ∧ anyPoison s a 16 = false ∧ die0Whole s = true ∧
      anyPoison (setWord s a ⟨0, true⟩) a 16 = true ∧ die0Whole (setWord s a ⟨0, true⟩) = true) := by decide +kernel

/-- A state with its power fields set. -/
def pw (s : State) (p : PowerSt) : State := { s with power := p }

/-- The device region's newer copy written once, slot 0 valid. -/
def bootPower (b : Boot) : PowerSt :=
  { boot := b, nvm := { copies := [(0, { seq := 1 })] }, slots := [(0, ⟨[], true, 0⟩)] }

theorem witness_Starts (h : Config.verifyPackage [] = some 0) :
    slotSvn (pw (up []) (bootPower .held)) (pw (up []) (bootPower .held)).power.nvm.active ≠ none := by
  simp [slotSvn, pw, bootPower, Tab.get, h]

theorem witness_StartsAndModes_starts :
    (∀ b ∈ [Boot.held, .standby], let s := pw (up []) (bootPower b);
      s.power.boot = b ∧ s.pins.porst = true ∧ s.pins.safePorst = true ∧ s.power.nvm.trial = none ∧
      s.power.nvm.active < 2 ∧ (nvmCopy s 0).seq ≠ 0) ∧
    (let s := pw (up []) { boot := .standby, wakeTimer := 1 }; s.power.boot = .standby ∧ s.power.wakeTimer ≠ 0 ∧
      (nvmCopy s 0).seq = 0) ∧
    (let s := pw (up ((Reg.PWR_MODE, 0) :: (List.range 4).map (fun d => (Reg.DIE_MEM_STATUS d, 1)))) { boot := .started };
      s.power.boot = .started ∧ s.clk.locked = true ∧ s.serac.devRestart = false ∧ filled s = true ∧ s.power.actSlot = none ∧
      rdf s Reg.PWR_MODE 5 3 ≠ 4 ∧ s.serac.slice = none) ∧
    (let s := pw (up [(Reg.MBX_STATUS 16, 0)]) { bootPower .recovery with slots := [] };
      s.power.boot = .recovery ∧ rdb s (Reg.MBX_STATUS 16) 0 = false ∧ s.power.nvm.minSvn ≤ 0 ∧
      watermark s = 0x10010000000 ∧ anyPoison s (watermark s) 0x100 = false) := by decide +kernel

theorem witness_StartsAndModes_package :
    Reach (pw (up [(Reg.MBX_STATUS 16, 0)]) { bootPower .recovery with slots := [] }) (.rime 3 .normal)
      (watermark (pw (up [(Reg.MBX_STATUS 16, 0)]) { bootPower .recovery with slots := [] })) (0x100 / 8 + 1) :=
  reach_whole (by decide +kernel) (by decide +kernel) (by decide +kernel) (by decide +kernel)

theorem witness_StartsAndModes_modes :
    (let s := pw (up [(Reg.MBX_STATUS 16, 0)]) { boot := .ready, changing := some (0, 2) };
      rdb s (Reg.MBX_STATUS 16) 0 = false ∧ mbxBusy s = false ∧ s.power.changing.isSome = true ∧ standbyOk s = true ∧ standbyOk (wrn s (Reg.INST_STATE 16 16) 2) = false) ∧
    (let s := pw (up [(Reg.MBX_STATUS 16, 0)]) { boot := .ready };
      s.power.changing = none ∧ emergency s = false ∧ s.serac.restarting = [] ∧ s.power.force ≠ 2) ∧
    (fld (0x72 : Word) 7 4 = 7 ∧ fld (0x02 : Word) 2 0 = 2 ∧ fld (0x04 : Word) 2 0 = 4 ∧ bit (8 : Word) 3 = true) ∧
    (let s := pw (up [(Reg.PWR_MODE, 2 <<< 3)]) { boot := .ready, changing := some (0, 2) };
      let s : State := { s with dies := (List.range 4).map (fun d => (d, { slowDram := true, rateNext := true, avsTarget := 720 })) };
      let s := (List.range 4).foldl (fun t d => wrf (wrf t (Reg.DIE_CLK_STATUS d) 2 0 6) (Reg.DIE_CLK_CTL d) 2 0 6) s;
      s.power.changing = some (0, 2) ∧ ratesDone s 2 = true ∧ s.power.unparking = [] ∧ (∀ d < 4, parked s d = false) ∧
      rdf s Reg.PWR_MODE 13 10 = 0 ∧ rdf s Reg.PWR_MODE 5 3 = 2 ∧ emergency s = false ∧ s.power.actSlot = none ∧
      s.serac.restarting = [] ∧ s.rime.jobs = [] ∧ s.rime.logCfg = none) := by decide +kernel

theorem witness_StartsAndModes_idle :
    (let s := pw (up ((Reg.PWR_MODE, 0) :: (List.range 128).map (fun n => (Reg.CORE_STATUS n, 0))))
        { boot := .ready, nvm := { platform := { idleDelay := 1 } } };
      booted s = true ∧ rdf s Reg.PWR_MODE 2 0 ≠ 3 ∧ s.power.changing = none ∧ s.serac.devRestart = false ∧
      s.power.nvm.platform.idleDelay ≠ 0 ∧ (∀ n < 128, running s n = false) ∧ s.snow.ttq = []) ∧
    (let s := up [(Reg.PWR_MODE, 3), (Reg.CORE_STATUS 127, 0)]; rdf s Reg.PWR_MODE 2 0 = 3 ∧ running s 127 = false ∧
      s.serac.slice = none) ∧
    (∀ v ∈ [none, some 720], let s : State := { up [] with dies := [(3, { avsNext := v })] };
      s.power.changing = none ∧ (getDie s 3).avsNext = v) := by decide +kernel

theorem witness_StartsAndModes_emergencies :
    (∀ f ∈ [0, 1, 2, 3], let s := up [(Reg.PWR_STATUS, BitVec.ofNat 64 f)];
      hubOn s = true ∧ rdb s Reg.PWR_STATUS 0 = (f % 2 == 1) ∧ rdb s Reg.PWR_STATUS 1 = decide (2 ≤ f) ∧
      emergency s = (f != 0) ∧ serving s 3 = true ∧ s.power.force ≠ 2 ∧ rdb s Reg.PWR_STATUS 5 = false ∧
      s.power.nvm.platform.thermHi = 105 ∧ s.power.nvm.platform.pwrLimit = 560 ∧ s.rime.jobs = [] ∧ s.power.actSlot = none) ∧
    ((105 : Int) * 10 ≤ 1050 ∧ (1049 : Int) < 105 * 10 ∧ (999 : Int) < 105 * 10 - 50 ∧ 560 * 10 < 5601 ∧ 5600 ≤ 560 * 10 ∧
      5319 * 100 < 560 * 950) ∧
    (let s := pw (up [(Reg.PWR_STATUS, 1)]) { boot := .ready, force := 2 };
      emergency s = true ∧ s.power.force = 2 ∧ s.power.changing = none) := by decide +kernel

theorem witness_StartsAndModes_activation :
    (let s := pw (up [(Reg.FW_STATUS, 0), (Reg.MBX_STATUS 16, 0)]) { boot := .ready, changing := some (0, 2), slots := [(1, ⟨[], true, 0⟩)] };
      (Tab.get ({} : Slot) s.power.slots 1).valid = true ∧ (Tab.get ({} : Slot) s.power.slots 0).valid = false ∧
      rdf s Reg.FW_STATUS 0 0 = 0 ∧ allFns.any (fun fn => instState s fn == 2 || instState s fn == 3) = false ∧
      1 ≤ s.power.nvm.platform.fwActLimit ∧ regionWorn s 0 = false ∧ emergency (wrb s Reg.PWR_STATUS 0 true) = true) ∧
    (∀ t ∈ [599, 600], let s := wrn (pw (up []) { boot := .ready, actSlot := some (1, 0) }) Reg.SNOW_NS (t * 1000000000);
      s.power.actSlot = some (1, 0) ∧
      (0 + s.power.nvm.platform.fwActLimit * 1000000000 ≤ nowN s ↔ t = 600)) := by decide +kernel

theorem witness_RecordsPinsAndDebug_requests :
    (let s := up [(Reg.MBX_STATUS 16, 0)];
      0x100 ≤ regionRoom 2 ∧ watermark s ≤ 0x10010001000 ∧ (nvmCopy s 2).oldHalf < 2 ∧ regionWorn s 2 = false ∧
      anyPoison s 0x10010001000 0x100 = false ∧ die0Whole s = true ∧ (nvmCopy s 6).bytes.length = 0 ∧
      Tab.find s.host.dirty 31 = none ∧ recSlot s = some 0 ∧ (recOfAge s 0).isSome = true ∧ recOfAge s 1 = none) ∧
    (let s := up ((List.range 64).map (fun k => (Reg.NVM_SECTOR_ERASES (64 + k), 100000))); recSlot s = none) ∧
    (let s := pw (up ((List.range 4).map (fun k => (Reg.NVM_SECTOR_ERASES (4 + k), 100000)))) { boot := .ready, ring := [(5, {})] };
      (recOfAge s 1).isSome = true ∧ regionWorn s 2 = true) ∧
    ((0x3F0161 : BitVec 32).toNat < 4194304 ∧ (0x3F0161 : BitVec 32).toNat / 2 ^ 9 % 128 = 0 ∧
      (0x3F0161 : BitVec 32).toNat / 32 % 16 = 11 ∧ (0x3F0161 : BitVec 32).toNat % 2 = 1 ∧
      11 < (0x181 : BitVec 32).toNat / 32 % 16) := by decide +kernel

theorem witness_RecordsPinsAndDebug_store (bs : List Byte) (n : NvmSt) :
    (Config.regionEntries 2 bs = none → regionPut n 2 bs = none) ∧
    (∀ es, Config.regionEntries 2 bs = some es → headerOk 2 bs es.length = true → ∀ x, platformOf es = some x →
      regionPut n 2 bs = some { n with platform := x }) := by
  refine ⟨fun h => by simp [regionPut, h], fun es h h1 x h2 => by simp [regionPut, h, h1, h2]⟩

theorem witness_RecordsPinsAndDebug_events :
    (let s := up [(Reg.ICE_POH, 3600)]; serving s 3 = true ∧ rdn s Reg.ICE_POH ≠ 0 ∧ rdn s Reg.ICE_POH % 3600 = 0 ∧ recSlot s = some 0) ∧
    (rdn (up [(Reg.ICE_POH, 3599)]) Reg.ICE_POH % 3600 ≠ 0) ∧
    (∀ b ∈ [Boot.ready, .standby, .held], (pw (up []) { boot := b }).power.boot = b) ∧
    ((pw (up []) { boot := .ready, frostTrig := 8 }).power.frostTrig ≠ 0 ∧ (up []).power.frostTrig = 0) ∧
    (let s := up ((List.range 17).map (fun n => (Reg.INST_STATE 16 n, 4)));
      s.pins.perst = true ∧ hubOn s = true ∧ (∀ fn < 17, instState s fn ≠ 2 ∧ instState s fn ≠ 3) ∧ s.power.boot = .ready ∧
      s.serac.lost = [] ∧ s.serac.devRestart = false) := by decide +kernel

theorem witness_RecordsPinsAndDebug_cuts :
    (∀ c ∈ [0, 1], let s := up [(Reg.SEC_CLAIM, BitVec.ofNat 64 (c <<< 27)), (Reg.PWR_PWR_OFF, 0), (Reg.PWR_CLK_OFF, 0)];
      live s 3 = true ∧ bit (rd s Reg.PWR_PWR_OFF) 27 = false ∧ bit (rd s Reg.PWR_CLK_OFF) 27 = false ∧
      rdb s Reg.SEC_CLAIM 27 = (c == 1)) ∧
    live (up [(Reg.RIME_STATUS 3, 0)]) 3 = false := by decide +kernel

theorem witness_RecordsPinsAndDebug_debug : ∀ d ∈ [0, 1, 2, 8],
    (let s := up [(Reg.SEC_DBG, BitVec.ofNat 64 d)];
      s.pins.trst = true ∧ rdb s Reg.SEC_DBG 3 = (d == 8) ∧ debugMemOk s true 0x10010001000 = (d == 1) ∧
      debugMemOk s false 0x10010001000 = (d == 1 || d == 2) ∧ die0Whole s = true ∧ s.power.frostDies = [] ∧
      Tab.find s.host.dirty 31 = none) := by decide +kernel

/-! ### Steps -/

theorem witness_IdleCycle :
    (let s := up [(Reg.SNOW_SLEW, 0)]; s.pending = [] ∧ s.clk.locked = true ∧ hubOn s = true ∧ snowCut s = false ∧
      rdf s Reg.SNOW_SLEW 31 0 = 0) ∧
    (State.reset.pending = [] ∧ State.reset.clk.locked = false) := by decide +kernel

theorem witness_StepKeepsCanonical : State.reset.canonical := by
  unfold State.canonical
  decide +kernel

theorem test_step_front : step { State.reset with pending := [.porstN false] } = exec (.porstN false) State.reset := rfl

end Sys2Proof.Tests
end

section
/-! PROOFS. Register access (R9-R11, R34-R36): the register tables read backwards, and one write of a W1C register. -/

namespace Sys2Proof.Machine

/-! ### Registers left alone -/

theorem SameRegs.refl (s : State) (l : List Nat) : SameRegs s s l := fun _ _ => rfl

theorem SameRegs.wr {s t : State} {l : List Nat} {a : Nat} (h : SameRegs s t l) (v : Word) (ha : a ∈ l) :
    SameRegs s (wr t a v) l :=
  fun x hx => (rd_wr_ne t v (ne_of_mem_of_not_mem ha hx).symm).trans (h x hx)

theorem SameRegs.hwSet {s t : State} {l : List Nat} {st ev : Nat} (h : SameRegs s t l) (m : Word) (hst : st ∈ l)
    (hev : ev ∈ l) : SameRegs s (hwSet t st ev m) l :=
  (h.wr _ hst).wr _ hev

/-! ### The register tables (Tables 00.9, 06.1-06.3) -/

/-- The register block of a key, read backwards. -/
theorem eq_base_add_of_blkOf {a u off : Nat} {b : Blk} : blkOf a = some (b, u, off) → a = b.base u + off := by
  unfold blkOf
  extract_lets d x
  repeat' refine iteInduction (motive := fun o => o = some (b, u, off) → a = b.base u + off) (fun _ => ?_) (fun _ => ?_)
  all_goals simp only [Option.some.injEq, Prod.mk.injEq, reduceCtorEq, and_imp, IsEmpty.forall_iff]
  all_goals
    rintro rfl hu hoff
    simp only [Blk.base]
    omega

/-- A register's offset is one of its row's `count` offsets. -/
theorem RegRow.exists_of_holds {r : RegRow} {off : Nat} (h : r.holds off = true) :
    ∃ k < r.count, off = r.off + k * r.stride := by
  unfold RegRow.holds at h
  rw [Bool.and_eq_true, decide_eq_true_eq] at h
  obtain ⟨hle, h⟩ := h
  split_ifs at h with h1
  · exact ⟨0, by omega, by simpa using h⟩
  · rw [Bool.and_eq_true, beq_iff_eq, decide_eq_true_eq] at h
    obtain ⟨hmod, hlt⟩ := h
    have hdiv := Nat.div_add_mod' (off - r.off) r.stride
    exact ⟨_, hlt, by omega⟩

/-- The row `regInfo` answers stands in its block's table and holds the register's offset. -/
theorem exists_of_regInfo {a u : Nat} {b : Blk} {r : RegRow} (h : regInfo a = some (b, u, r)) :
    ∃ off, a = b.base u + off ∧ r ∈ b.rows ∧ r.holds off = true := by
  unfold regInfo at h
  split at h
  · cases h
  next b' u' off hb =>
    split at h
    · cases h
    next r' hr =>
      split_ifs at h
      simp only [Option.some.injEq, Prod.mk.injEq] at h
      obtain ⟨rfl, rfl, rfl⟩ := h
      exact ⟨off, eq_base_add_of_blkOf hb, List.mem_of_find?_eq_some hr, by simpa using List.find?_some hr⟩

/-- An address with a row is a whole register's. -/
theorem regKey_of_regInfo {a : Nat} {x : Blk × Nat × RegRow} (h : regInfo a = some x) : regKey a = some (a, false) := by
  simp [regKey, h]

/-! ### The rows of W1C registers -/

/-- Can a lock (R9) or a busy channel (R190) keep a requester from writing the register at this offset? -/
def guardedOff (b : Blk) (off : Nat) : Bool :=
  (match b with
    | .sec => off == 0
    | .firn => off == 0x18 || off == 0x20 || off == 0x28
    | .rime => off == 0x10
    | _ => false)
  || (chanAt b 0 off).any (fun c => c.2 == 0 || c.2 == 8 || c.2 == 0x10 || c.2 == 0x20)

/-- A register's offset in its channel's block is the same in every unit. -/
theorem chanAt_snd (b : Blk) (u off : Nat) : (chanAt b u off).map Prod.snd = (chanAt b 0 off).map Prod.snd := by
  cases b <;> simp only [chanAt] <;> split_ifs <;> rfl

theorem rwlLocked_of_not_guardedOff {b : Blk} {off : Nat} (h : guardedOff b off = false) (s : State) (a : Nat) :
    rwlLocked s b off a = false := by
  unfold guardedOff at h
  rw [Bool.or_eq_false_iff] at h
  cases b <;> simp_all [rwlLocked]

theorem chanHeld_of_not_guardedOff {b : Blk} {off : Nat} (h : guardedOff b off = false) (s : State) (u : Nat) :
    chanHeld s b u off = false := by
  have hsnd := chanAt_snd b u off
  unfold guardedOff at h
  rw [Bool.or_eq_false_iff] at h
  unfold chanHeld
  rcases hc : chanAt b u off with _ | ⟨c, o⟩
  · rfl
  · rcases h0 : chanAt b 0 off with _ | ⟨c', o'⟩
    · simp [hc, h0] at hsnd
    · obtain rfl : o = o' := by simpa [hc, h0] using hsnd
      split <;> simp_all

/-- What the tables keep to for a row with W1C bits: they lie in the low half, beside no RW bit; the row names an event
counter that is none of its own registers; and no lock and no channel guards them. -/
def W1cRow (b : Blk) (r : RegRow) : Prop :=
  r.rw = 0#64 ∧ r.w1c &&& maskOf 31 0 = r.w1c ∧
    ∃ e ∈ r.ev, ∀ k < r.count, e ≠ r.off + k * r.stride ∧ guardedOff b (r.off + k * r.stride) = false

theorem w1cRow_of_mem (b : Blk) : ∀ r ∈ b.rows, r.w1c ≠ 0 → W1cRow b r := by
  unfold W1cRow
  cases b <;> decide +kernel

/-- A W1C register has an event counter beside it, and neither a lock nor a channel guards it. -/
theorem w1c_register {a u : Nat} {b : Blk} {r : RegRow} (h : regInfo a = some (b, u, r)) (hw : r.w1c ≠ 0) :
    guardedOff b (a - b.base u) = false ∧ ∃ e, evReg b u r a = some e ∧ e ≠ a := by
  obtain ⟨off, rfl, hmem, hholds⟩ := exists_of_regInfo h
  obtain ⟨k, hk, rfl⟩ := RegRow.exists_of_holds hholds
  obtain ⟨-, -, e, he, hoffs⟩ := w1cRow_of_mem b r hmem hw
  have hk0 := (hoffs 0 (by omega)).1
  obtain ⟨hek, hguard⟩ := hoffs k hk
  refine ⟨by simpa using hguard, _, congrArg (Option.map _) he, ?_⟩
  dsimp only
  split_ifs <;> omega

/-! ### A write of a W1C register -/

/-- A write of a whole register reaches every flag of its low half. -/
theorem writePart_and_low (width : Nat) (v : Word) {f : Word} (hf : f &&& maskOf 31 0 = f) :
    (writePart false width v).2 &&& (f &&& (writePart false width v).1) = v &&& f := by
  unfold writePart
  rw [if_neg Bool.false_ne_true]
  split_ifs
  · rw [BitVec.and_allOnes]
  · rw [hf, BitVec.and_assoc, BitVec.and_comm (maskOf 31 0), hf]

/-- What is written to the flags of `f`, beside what the other bits hold. -/
theorem merge_and (x y f : Word) : (x &&& f ||| (y &&& ~~~ f)) &&& f = x &&& f := by
  apply BitVec.eq_of_getLsbD_eq
  intro i hi
  cases hb : f[i] <;> simp [hb, hi]

section
variable {s : State} {who : Requester} {a u : Nat} {b : Blk} {r : RegRow} (hinfo : regInfo a = some (b, u, r))
  (hflags : r.w1c ≠ 0) (hmay : mayWrite s who b u (a - b.base u) = true)
  (hpin : pinHidden s who b (a - b.base u) = false)
include hinfo hflags hmay hpin

/-- A write of a W1C register by who may write it clears the flags written as 1 and leaves every other bit. -/
theorem regWrite_w1c (v : Word) : regWrite s who a r.width v = wr s a (rd s a &&& ~~~ (v &&& r.w1c)) := by
  obtain ⟨off, -, hmem, -⟩ := exists_of_regInfo hinfo
  obtain ⟨hrw, hlow, -⟩ := w1cRow_of_mem b r hmem hflags
  obtain ⟨hguard, -⟩ := w1c_register hinfo hflags
  have hclear := writePart_and_low r.width v hlow
  simp only [regWrite, regKey_of_regInfo hinfo, hinfo, hmay, hpin, rwlLocked_of_not_guardedOff hguard,
    chanHeld_of_not_guardedOff hguard, hrw, hclear, Bool.false_eq_true, not_false_eq_true, and_self, if_true,
    BitVec.zero_and, BitVec.and_zero, BitVec.or_zero, BitVec.not_zero, BitVec.and_allOnes]

/-- W1C_CLEAR is the clear, then the hardware's sets of the same cycle with their count. -/
theorem exec_w1cClear (v hw : Word) {e : Nat} (he : evReg b u r a = some e) :
    exec (.w1cClear who a v hw) s = .next (
      let t := wr s a (rd s a &&& ~~~ (v &&& r.w1c))
      if hw &&& r.w1c = 0 then t else hwSet t a e (hw &&& r.w1c)) := by
  show execW1cClear who a v hw s = _
  simp only [execW1cClear, hinfo, he, regWrite_w1c hinfo hflags hmay hpin, merge_and]

end

/-- Settles O21: no lock or channel guards a row with flags and no RW bit stands beside them, so the write only clears,
and the hardware's sets follow it and win; the counter is another register, which only `hwSet` moves. -/
theorem w1cFlags : Obligations.W1cFlags := by
  intro s who a u b r v hw hinfo hflags hmay hpin
  obtain ⟨-, e, he, hne⟩ := w1c_register hinfo hflags
  refine ⟨_, exec_w1cClear hinfo hflags hmay hpin v hw he, ?_⟩
  dsimp only
  split_ifs with h0
  · exact ⟨by simp [h0], e, he, hne, ⟨rfl, (SameRegs.refl s _).wr _ (by simp)⟩, fun _ => rd_wr_ne s _ hne,
      fun h => absurd h0 h⟩
  · refine ⟨by simp [rd_hwSet, hne.symm], e, he, hne,
      ⟨rfl, ((SameRegs.refl s _).wr _ (by simp)).hwSet _ (by simp) (by simp)⟩, fun h => absurd h h0, fun _ => ?_⟩
    simp only [rdn, rd_hwSet, if_pos, rd_wr_ne _ _ hne, BitVec.toNat_ofNat]
    omega
end Sys2Proof.Machine
end

section
/-! PROOFS. Clocks (R16-R21): what recording an error does, the package faults of clock supervision, and the dividers
of the dies. -/

namespace Sys2Proof.Machine

/-! ### Recording an error (R25, R29-R31) -/

theorem rd_ite (c : Prop) [Decidable c] (s t : State) (a : Nat) : rd (if c then s else t) a = if c then rd s a else rd t a :=
  apply_ite (fun s => rd s a) c s t

@[simp] theorem rd_iceAdd (s : State) (off w n a : Nat) : rd (iceAdd s off w n) a = rd s a := rfl

section
variable (s : State) (l : Level) (u : Nat) (cls : ErrClass) (src addr : Nat) (esc : Bool) (child : Nat) (inj : Bool)

@[simp] theorem errRecord_mem : (errRecord s l u cls src addr esc child inj).mem = s.mem := by
  simp [errRecord, apply_ite State.mem, iceAdd, notify, emit]

@[simp] theorem errRecord_cores : (errRecord s l u cls src addr esc child inj).cores = s.cores := by
  simp [errRecord, apply_ite State.cores, iceAdd, notify, emit]

@[simp] theorem errRecord_clk : (errRecord s l u cls src addr esc child inj).clk = s.clk := by
  simp [errRecord, apply_ite State.clk, iceAdd, notify, emit]

@[simp] theorem errRecord_reports : (errRecord s l u cls src addr esc child inj).reports = s.reports := by
  simp [errRecord, apply_ite State.reports, iceAdd, notify, emit]

/-- A class other than CE cannot reach CE_THRESH: the CE count stands. -/
theorem not_threshold_of_same_count (limit ce : Nat) : ¬ (limit ≠ 0 ∧ ce < limit ∧ limit ≤ ce) := by omega

/-- A record of a class other than CE tells no one of CE_THRESH. -/
theorem errRecord_out (h : cls ≠ .ce) : (errRecord s l u cls src addr esc child inj).out = s.out := by
  simp [errRecord, apply_ite State.out, iceAdd, h, -ne_eq, not_threshold_of_same_count]

/-- The flags a record sets in ERR_STATUS (Table 01.6) for a class other than CE: its own, FIRST_VALID with the first
UC or FE, and ESC_IN. -/
def errFlags (s : State) (l : Level) (u : Nat) (cls : ErrClass) (esc : Bool) : Word :=
  oneBit (clsCode cls - 1)
    ||| (if (cls = .uc ∨ cls = .fe) ∧ rdb s (Reg.ERR_STATUS l u) 6 = false then oneBit 6 else 0)
    ||| (if esc then oneBit 5 else 0)

theorem rd_errRecord_status (h : cls ≠ .ce) : rd (errRecord s l u cls src addr esc child inj) (Reg.ERR_STATUS l u) =
      setFld (rd s (Reg.ERR_STATUS l u)) 23 16 src ||| errFlags s l u cls esc := by
  have hfirst : rdb (wrf s (Reg.ERR_STATUS l u) 23 16 src) (Reg.ERR_STATUS l u) 6 = rdb s (Reg.ERR_STATUS l u) 6 := by
    simp [rdb, rd_wrf, bit_setFld]
  simp only [errRecord, h, if_false, hfirst, not_threshold_of_same_count]
  simp [rd_ite, rd_hwSet, rd_wr, rd_wrn, rd_wrf, errFlags]

/-- The class's own flag is among those a record sets. -/
theorem bit_errFlags_class : bit (errFlags s l u cls esc) (clsCode cls - 1) = true := by
  unfold bit errFlags
  rw [BitVec.getLsbD_or, BitVec.getLsbD_or]
  cases cls <;> simp [clsCode, oneBit]

/-- The flags lie below the source. -/
theorem bit_errFlags_high {i : Nat} (hi : 7 ≤ i) : bit (errFlags s l u cls esc) i = false := by
  have hone (j : Nat) (hj : j < 7) : (oneBit j).getLsbD i = false :=
    (bit_oneBit j i (by omega)).trans (decide_eq_false (by omega))
  have hcls : clsCode cls - 1 < 7 := by cases cls <;> decide
  unfold bit errFlags
  rw [BitVec.getLsbD_or, BitVec.getLsbD_or, hone _ hcls]
  split_ifs <;> simp [hone]

end

/-- A field beside the bits of a word joined in. -/
theorem fld_or_of_disjoint (v m : Word) (hi lo : Nat) (h : ∀ i, lo ≤ i → bit m i = false) :
    fld (v ||| m) hi lo = fld v hi lo := by
  apply Nat.eq_of_testBit_eq
  intro i
  rw [fld_testBit, fld_testBit, BitVec.getLsbD_or, show m.getLsbD (lo + i) = false from h _ (by omega), Bool.or_false]

/-! ### Package faults (R17, R25) -/

/-- A package FE is recorded and its report queued; nothing is contained at once. -/
theorem detect_package_fe (s : State) (src addr : Nat) : detect s .package 0 .fe src addr =
    { errRecord s .package 0 .fe src addr false 0 false with
      reports := s.reports ++ [⟨.package, 0, .fe, src, addr, false⟩] } := by
  simp [detect]

theorem packageFatal_detect (s : State) {src : Nat} (addr : Nat) (hsrc : src < 256) :
    PackageFatal s (detect s .package 0 .fe src addr) src addr := by
  rw [detect_package_fe]
  have hstatus := rd_errRecord_status s .package 0 .fe src addr false 0 false (by decide)
  refine ⟨?_, ?_, rfl, errRecord_mem .., errRecord_cores ..⟩
  · show bit (rd (errRecord s .package 0 .fe src addr false 0 false) _) 3 = true
    rw [hstatus, bit, BitVec.getLsbD_or, Bool.or_eq_true]
    exact .inr (bit_errFlags_class s .package 0 .fe false)
  · show fld (rd (errRecord s .package 0 .fe src addr false 0 false) _) 23 16 = src
    rw [hstatus, fld_or_of_disjoint _ _ _ _ fun i hi => bit_errFlags_high _ _ _ _ _ (by omega),
      fld_setFld_same _ _ _ _ (by omega) (by omega)]
    omega

/-! ### Clock supervision (R16, R17, R274) -/

/-- A count is more than 1 % off exactly where it lies outside 99 % to 101 % of its nominal. -/
theorem offOne_iff (count nominal : Nat) :
    offOne count nominal = true ↔ count * 100 < nominal * 99 ∨ nominal * 101 < count * 100 := by
  simp [offOne]

/-- Without lock no clock runs. -/
theorem pclkTick_of_unlocked {s : State} (h : s.clk.locked = false) : pclkTick s = s := by
  simp [pclkTick, h]

theorem rootPllLockLoss_completes {s : State} (h : s.clk.locked = true) :
    Completes .rootPllLockLoss s (fun t => t.clk.locked = false ∧ PackageFatal s t 0x81 0) := by
  refine ⟨_, congrArg Host.Outcome.next (if_pos h), ?_, packageFatal_detect { s with clk.locked := false } 0 (by decide)⟩
  rw [detect_package_fe, errRecord_clk]

theorem clockMonitorWindow_completes {s : State} (h : s.clk.wasLocked = true) (p n : Nat) :
    ((p < 7920 ∨ 8080 < p ∨ n < 31680 ∨ 32320 < n) →
      Completes (.clockMonitorWindow p n) s (fun t => PackageFatal s t 0x82 0)) ∧
    (7920 ≤ p → p ≤ 8080 → 31680 ≤ n → n ≤ 32320 → Completes (.clockMonitorWindow p n) s (fun t => t = s)) := by
  have hoff : (offOne p 8000 = true ∨ offOne n 32000 = true) ↔ (p < 7920 ∨ 8080 < p ∨ n < 31680 ∨ 32320 < n) := by
    rw [offOne_iff, offOne_iff]
    omega
  constructor
  · intro hbad
    exact ⟨_, congrArg Host.Outcome.next (if_pos ⟨h, hoff.2 hbad⟩), packageFatal_detect s 0 (by decide)⟩
  · intro hp hp' hn hn'
    exact ⟨_, congrArg Host.Outcome.next (if_neg fun hbad => by have := hoff.1 hbad.2; omega), rfl⟩

theorem seracClockCheck_completes {s : State} (h : s.clk.wasLocked = true) (c : Nat) :
    ((c < 25344 ∨ 25856 < c) → Completes (.seracClockCheck c) s (fun t =>
      PackageFatal s t 0x88 0 ∧ t.out = .notice "Serac" "clock deviation" c :: s.out)) ∧
    (25344 ≤ c → c ≤ 25856 → Completes (.seracClockCheck c) s (fun t => t = s)) := by
  have hoff : offOne c 25600 = true ↔ (c < 25344 ∨ 25856 < c) := by
    rw [offOne_iff]
    omega
  constructor
  · intro hbad
    refine ⟨_, congrArg Host.Outcome.next (if_pos ⟨h, hoff.2 hbad⟩),
      packageFatal_detect (notify s "Serac" "clock deviation" c) 0 (by decide), ?_⟩
    rw [detect_package_fe]
    exact errRecord_out _ _ _ _ _ _ _ _ _ (by decide)
  · intro hc hc'
    exact ⟨_, congrArg Host.Outcome.next (if_neg fun hbad => by have := hoff.1 hbad.2; omega), rfl⟩

theorem clockSupervision : ClockSupervision := by
  intro s p n c
  refine ⟨fun hempty hlock => ?_, fun hheld hstandby => ?_, rootPllLockLoss_completes, fun hwas => ?_⟩
  · rw [step, hempty]
    exact congrArg Host.Outcome.next (pclkTick_of_unlocked hlock)
  · exact ⟨_, congrArg Host.Outcome.next (if_neg (not_or.2 ⟨hheld, hstandby⟩)), rfl⟩
  · obtain ⟨hoff, hon⟩ := clockMonitorWindow_completes hwas p n
    exact ⟨hoff, hon, seracClockCheck_completes hwas c⟩

/-! ### The dividers of the dies (R18, R20) -/

/-- With no mode change under way there is no next step of one. -/
theorem modeNext_of_no_change {s : State} (h : s.power.changing = none) : modeNext s = s := by
  simp [modeNext, h]

theorem cdivWrite_gates {s : State} {d : Nat} {c : BitVec 3} (hd : d < 4) (hlive : live s (4 + d) = true)
    (hlo : 4 ≤ c.toNat) (hhi : c.toNat ≤ 6) : Completes (.cdivWrite d c) s (fun t =>
      rdf t (Reg.DIE_CLK_CTL d) 2 0 = c.toNat ∧ cclkGated t d = true ∧ (getDie t d).cdivNext = c ∧
      SameRegs s t [Reg.DIE_CLK_CTL d] ∧ t.mem = s.mem) := by
  refine ⟨_, congrArg Host.Outcome.next ((if_pos hlive).trans (if_pos ⟨hlo, hhi⟩)), ?_, ?_, ?_, ?_, rfl⟩
  · exact (rdf_wrf_same s _ 2 0 _ (by omega) (by omega)).trans (Nat.mod_eq_of_lt (by omega))
  · simp [cclkGated, hd]
  · simp
  · exact (SameRegs.refl s _).wr _ (by simp)

/-- A reserved divider changes nothing, whoever writes it. -/
theorem cdivWrite_reserved {s : State} {d : Nat} {c : BitVec 3} (h : c.toNat < 4 ∨ 6 < c.toNat) :
    Completes (.cdivWrite d c) s (fun t => t = s) := by
  have hset : cdivSet s d c.toNat = s := if_neg (by omega)
  have hexec : exec (.cdivWrite d c) s = .next s := by
    show execCdivWrite d c s = _
    rw [execCdivWrite, hset, ite_self]
  exact ⟨_, hexec, rfl⟩

/-- A restart that does not lower CCLK, outside a mode change, is no judgement point. -/
theorem cclkRestart_completes {s : State} {d : Nat} (hbusy : (getDie s d).cdivBusy = true)
    (hchange : s.power.changing = none) (hdiv : (getDie s d).cdivNext.toNat ≤ rdf s (Reg.DIE_CLK_STATUS d) 2 0) :
    Completes (.cclkRestart d) s (fun t =>
      rdf t (Reg.DIE_CLK_STATUS d) 2 0 = (getDie s d).cdivNext.toNat ∧ (getDie t d).cdivBusy = false ∧
      SameRegs s t [Reg.DIE_CLK_STATUS d] ∧ t.mem = s.mem) := by
  have hexec : exec (.cclkRestart d) s = .next (wrf (setDie s d { getDie s d with cdivBusy := false })
      (Reg.DIE_CLK_STATUS d) 2 0 (getDie s d).cdivNext.toNat) := by
    have hnot : ¬ cdivAct s d < (getDie s d).cdivNext.toNat := by unfold cdivAct; omega
    show execCclkRestart d s = _
    simp [execCclkRestart, hbusy, hnot, hchange, modeNext_of_no_change]
  have hlt := (getDie s d).cdivNext.isLt
  refine ⟨_, hexec, ?_, ?_, ?_, rfl⟩
  · exact (rdf_wrf_same _ _ 2 0 _ (by omega) (by omega)).trans (Nat.mod_eq_of_lt hlt)
  · exact congrArg DieSt.cdivBusy (getDie_setDie_same s d _)
  · exact SameRegs.wr (fun _ _ => rfl) _ (by simp)

/-- With no request held, the end of a hold serves none: only the die's queue is set. -/
theorem drainHeld_of_none_held {s : State} {d : Nat} (h : (getDie s d).held = []) :
    drainHeld s d = { s with dies := (drainHeld s d).dies } := by
  unfold drainHeld
  split_ifs
  · rfl
  · rw [h]
    rfl

/-- The state with both stacks of a die out of retraining. -/
def retrained (s : State) (d : Nat) : State :=
  wrb (wrb s (Reg.MEM_STATUS (2 * d)) 3 false) (Reg.MEM_STATUS (2 * d + 1)) 3 false

theorem getDie_retrained (s : State) (d n : Nat) : getDie (retrained s d) n = getDie s n := rfl

theorem rdb_retrained (s : State) (d : Nat) : rdb (retrained s d) (Reg.MEM_STATUS (2 * d)) 3 = false ∧
    rdb (retrained s d) (Reg.MEM_STATUS (2 * d + 1)) 3 = false := by
  simp [retrained, rdb_wrb]

theorem sameRegs_retrained (s : State) (d : Nat) :
    SameRegs s (retrained s d) [Reg.MEM_STATUS (2 * d), Reg.MEM_STATUS (2 * d + 1)] :=
  SameRegs.wr (SameRegs.wr (SameRegs.refl s _) _ (List.mem_cons_self ..)) _ (List.mem_cons_of_mem _ (List.mem_cons_self ..))

theorem rd_dies (s : State) (dies : Tab DieSt) (a : Nat) : rd { s with dies := dies } a = rd s a := rfl

/-- With no request held and no mode change under way, nothing follows the end of a retraining but the queue's set. -/
theorem modeNext_drainHeld_retrained {s : State} {d : Nat} (hchange : s.power.changing = none)
    (hheld : (getDie s d).held = []) :
    modeNext (drainHeld (retrained s d) d) = { retrained s d with dies := (drainHeld (retrained s d) d).dies } := by
  have hdrain := drainHeld_of_none_held ((congrArg DieSt.held (getDie_retrained s d d)).trans hheld)
  have hnone : (drainHeld (retrained s d) d).power.changing = none := by
    rw [hdrain]
    exact hchange
  exact (modeNext_of_no_change hnone).trans hdrain

theorem execDramRetrainDone_of_trains {s : State} {d : Nat} (h : trains s d = true) :
    execDramRetrainDone d s = .next (modeNext (drainHeld (retrained s d) d)) := by
  rw [execDramRetrainDone, if_pos h, ← retrained]

theorem dramRetrainDone_completes {s : State} {d : Nat} (htrains : rdb s (Reg.MEM_STATUS (2 * d)) 3 = true)
    (hchange : s.power.changing = none) (hheld : (getDie s d).held = []) :
    Completes (.dramRetrainDone d) s (fun t =>
      rdb t (Reg.MEM_STATUS (2 * d)) 3 = false ∧ rdb t (Reg.MEM_STATUS (2 * d + 1)) 3 = false ∧
      SameRegs s t [Reg.MEM_STATUS (2 * d), Reg.MEM_STATUS (2 * d + 1)] ∧ t.mem = s.mem) := by
  obtain ⟨hfirst, hsecond⟩ := rdb_retrained s d
  have hexec := (execDramRetrainDone_of_trains htrains).trans
    (congrArg Host.Outcome.next (modeNext_drainHeld_retrained hchange hheld))
  refine ⟨_, hexec, ?_, ?_, fun a ha => ?_, rfl⟩
  · exact (congrArg (bit · 3) (rd_dies ..)).trans hfirst
  · exact (congrArg (bit · 3) (rd_dies ..)).trans hsecond
  · rw [rd_dies, sameRegs_retrained s d a ha]

theorem dieClocks : DieClocks := by
  intro s d c hd
  exact ⟨cdivWrite_gates hd, cdivWrite_reserved, cclkRestart_completes, dramRetrainDone_completes⟩

/-- Settles O22, from the statement about supervision and the one about the dies' dividers. -/
theorem clocks : Obligations.Clocks := ⟨clockSupervision, dieClocks⟩

end Sys2Proof.Machine
end

section
/-! PROOFS. The start and the end of a kernel (R38, R65, R68-R70): the state START gives a core, and what ABORT and the
expiry of the budget drop. -/

namespace Sys2Proof

/-! ### Tables -/

/-- Keys 1 to `k` of a table after they are set in turn. -/
theorem Tab.get_forUpTo_set {α : Type} (d : α) (f : Nat → α) (t : Tab α) (k i : Nat) :
    Tab.get d (forUpTo k (fun j t => Tab.set t (j + 1) (f j)) t) i =
      if 1 ≤ i ∧ i ≤ k then f (i - 1) else Tab.get d t i := by
  induction k with
  | zero => rw [if_neg (by omega)]; rfl
  | succ k ih =>
    rw [forUpTo, List.range_succ, List.foldl_concat, ← forUpTo, Tab.get_set, ih]
    by_cases hi : i = k + 1
    · subst hi; simp
    · rw [if_neg hi]
      exact if_congr (by omega) rfl rfl

/-- Reading a table whose values are all changed by a function that keeps the default. -/
theorem Tab.get_map_snd {α : Type} {d : α} {f : α → α} (hd : f d = d) (t : Tab α) (k : Nat) :
    Tab.get d (t.map (fun e => (e.1, f e.2))) k = f (Tab.get d t k) := by
  induction t with
  | nil => exact hd.symm
  | cons e t ih => simp only [List.map_cons, Tab.get, ih, apply_ite f]

end Sys2Proof

namespace Sys2Proof.Machine

/-! ### Around a START (R401, R266) -/

/-- A core's registers lie outside the power block. -/
theorem coreReg_ne_pwrMode (n off : Nat) : Blk.base .core n + off ≠ Reg.PWR_MODE := by
  simp only [Blk.base, Reg.PWR_MODE]
  omega

theorem leaveIdle_regsOnly (s : State) : RegsOnly s (leaveIdle s) [Reg.PWR_MODE] := by
  unfold leaveIdle
  split_ifs
  · exact ⟨rfl, (SameRegs.refl s _).wr _ (by simp)⟩
  · exact ⟨rfl, SameRegs.refl s _⟩

/-- Ungating CCLK leaves every register of a core. -/
@[simp] theorem rd_leaveIdle_core (s : State) (n off : Nat) :
    rd (leaveIdle s) (Blk.base .core n + off) = rd s (Blk.base .core n + off) :=
  (leaveIdle_regsOnly s).2 _ (by simpa using coreReg_ne_pwrMode n off)

@[simp] theorem leaveIdle_cores (s : State) : (leaveIdle s).cores = s.cores := by
  rw [(leaveIdle_regsOnly s).1]

@[simp] theorem getCore_leaveIdle (s : State) (n : Nat) : getCore (leaveIdle s) n = getCore s n := by
  rw [getCore, leaveIdle_cores, getCore]

@[simp] theorem leaveIdle_mem (s : State) : (leaveIdle s).mem = s.mem := by
  rw [(leaveIdle_regsOnly s).1]

@[simp] theorem leaveIdle_serac (s : State) : (leaveIdle s).serac = s.serac := by
  rw [(leaveIdle_regsOnly s).1]

/-- With no slice to abandon, a release is a matter of Serac's task entries alone. -/
theorem taskRelease_of_no_slice {s : State} (h : s.serac.slice = none) (id : Word) :
    ∃ x, taskRelease s id = { s with serac := x } := by
  have habandon : sliceAbandon s = s := by simp [sliceAbandon, h]
  simp only [taskRelease, habandon, ite_self]
  refine foldl_keeps (fun t => ∃ x, t = { s with serac := x }) _ _ _ ⟨s.serac, rfl⟩ ?_
  rintro _ n ⟨x, rfl⟩
  exact ⟨_, rfl⟩

theorem seeStart_of_no_slice {s : State} (h : s.serac.slice = none) (n : Nat) :
    ∃ x, seeStart s n = { s with serac := x } := by
  unfold seeStart
  split
  · split
    · split_ifs
      · exact taskRelease_of_no_slice h _
      · exact ⟨_, rfl⟩
    · exact ⟨_, rfl⟩
  · exact ⟨_, rfl⟩

/-! ### The start state (R38) -/

/-- A core's start state is read off its own registers. -/
@[simp] theorem startState_leaveIdle (s : State) (n : Nat) : startState (leaveIdle s) n = startState s n := by
  simp [startState, Nat.add_assoc]

/-- The S registers at kernel start: S1 to S8 take CORE_ARG, the others are 0. -/
theorem get_startState_s (s : State) (n i : Nat) : Tab.get ⟨0, false⟩ (startState s n).s i =
    if 1 ≤ i ∧ i ≤ 8 then ⟨rd s (Reg.CORE_ARG n (i - 1)), false⟩ else ⟨0, false⟩ :=
  Tab.get_forUpTo_set _ (fun j => PWord.clean (rd s (Reg.CORE_ARG n j))) [] 8 i

section
variable {s : State} {n : Nat} (hidle : running s n = false)
include hidle

/-- What START does on a core without a kernel: the start state, then the three registers of Table 02.10 it sets. -/
theorem coreStart_of_not_running : coreStart s n =
    wrb (setPc (wr (setCore s n (startState s n)) (Reg.CORE_CYCLES n) 0) n (rdf s (Reg.CORE_ENTRY n) 10 0))
      (Reg.CORE_STATUS n) 0 true := by
  simp [coreStart, hidle, rdf, rd_wr]

theorem getCore_coreStart : getCore (coreStart s n) n = startState s n := by
  simp [coreStart_of_not_running hidle, setPc]

theorem coreStart_mem : (coreStart s n).mem = s.mem := by
  simp [coreStart_of_not_running hidle, setPc]

theorem coreStart_serac : (coreStart s n).serac = s.serac := by
  simp [coreStart_of_not_running hidle, setPc]

theorem running_coreStart : running (coreStart s n) n = true := by
  simp [coreStart_of_not_running hidle, running]

theorem rd_coreStart_cycles : rd (coreStart s n) (Reg.CORE_CYCLES n) = 0 := by
  simp [coreStart_of_not_running hidle, setPc, rd_wrb, rd_wrn]

theorem getPc_coreStart : getPc (coreStart s n) n = rdf s (Reg.CORE_ENTRY n) 10 0 := by
  simp [coreStart_of_not_running hidle, getPc, setPc, rdf, rd_wrb, rd_wrn, fld]

theorem sameRegs_coreStart :
    SameRegs s (coreStart s n) [Reg.CORE_STATUS n, Reg.CORE_CYCLES n, Reg.CORE_PC n] := by
  rw [coreStart_of_not_running hidle]
  refine SameRegs.wr (SameRegs.wr (SameRegs.wr (fun _ _ => rfl) _ ?_) _ ?_) _ ?_ <;> simp

end

/-- A START that takes effect, while no slice of a self-test runs. -/
theorem coreStart_completes {s : State} {n : Nat} (i : Nat) (hidle : running s n = false)
    (hslice : s.serac.slice = none) : Completes (.coreStart n) s (fun t =>
      running t n = true ∧ rd t (Reg.CORE_CYCLES n) = 0 ∧ getPc t n = rdf s (Reg.CORE_ENTRY n) 10 0 ∧
      (1 ≤ i → i ≤ 8 → readS t n i = ⟨rd s (Reg.CORE_ARG n (i - 1)), false⟩) ∧
      (9 ≤ i → readS t n i = ⟨0, false⟩) ∧ readA t n i = ⟨0, false⟩ ∧ readV t n i = {} ∧ readT t n i = {} ∧
      (getCore t n).mode = ⟨1, 1, true, none, none⟩ ∧ (getCore t n).stopped = false ∧ t.mem = s.mem ∧
      SameRegs s t [Reg.CORE_STATUS n, Reg.CORE_CYCLES n, Reg.CORE_PC n, Reg.PWR_MODE]) := by
  have hidle' : running (leaveIdle s) n = false := by simpa [running, rdb] using hidle
  obtain ⟨x, hsee⟩ := seeStart_of_no_slice (n := n)
    ((congrArg SeracSt.slice ((coreStart_serac hidle').trans (leaveIdle_serac s))).trans hslice)
  have hexec : exec (.coreStart n) s = .next { coreStart (leaveIdle s) n with serac := x } :=
    congrArg Host.Outcome.next ((if_neg (by simp [hidle])).trans hsee)
  have hcore : getCore { coreStart (leaveIdle s) n with serac := x } n = startState s n :=
    (getCore_coreStart hidle').trans (startState_leaveIdle s n)
  refine ⟨_, hexec, running_coreStart hidle', rd_coreStart_cycles hidle', ?_, fun hlo hhi => ?_, fun hi => ?_, ?_, ?_,
    ?_, ?_, ?_, (coreStart_mem hidle').trans (leaveIdle_mem s), fun a ha => ?_⟩
  · exact (getPc_coreStart hidle').trans (by simp [rdf])
  · rw [readS, if_neg (by omega), hcore, get_startState_s, if_pos ⟨hlo, hhi⟩]
  · rw [readS, if_neg (by omega), hcore, get_startState_s, if_neg (by omega)]
  · rw [readA, hcore]; rfl
  · rw [readV, hcore]; rfl
  · rw [readT, hcore]; rfl
  · rw [hcore]; rfl
  · rw [hcore]; rfl
  · simp only [List.mem_cons, not_or] at ha
    exact (sameRegs_coreStart hidle' a (by simp [ha])).trans ((leaveIdle_regsOnly s).2 a (by simp [ha]))

/-! ### What ends with a kernel (R70) -/

/-- STOP of a channel is a matter of the channel and its registers. -/
theorem mvStopOp_frame (s : State) (c : ChanId) :
    ∃ regs chans, mvStopOp s c = { s with regs := regs, chans := chans } := by
  unfold mvStopOp
  split_ifs
  · exact ⟨_, s.chans, rfl⟩
  · exact ⟨s.regs, _, rfl⟩
  · exact ⟨s.regs, s.chans, rfl⟩

section
variable (s : State) (n : Nat)

theorem stopCoreChannels_frame : ∃ regs chans, stopCoreChannels s n = { s with regs := regs, chans := chans } := by
  refine forUpTo_keeps (fun t => ∃ regs chans, t = { s with regs := regs, chans := chans }) _ _ _
    ⟨s.regs, s.chans, rfl⟩ ?_
  rintro ch _ ⟨regs, chans, rfl⟩
  exact mvStopOp_frame _ _

@[simp] theorem getCore_stopCoreChannels (m : Nat) : getCore (stopCoreChannels s n) m = getCore s m := by
  obtain ⟨regs, chans, h⟩ := stopCoreChannels_frame s n
  rw [h]; rfl

@[simp] theorem getClu_stopCoreChannels (k : Nat) : getClu (stopCoreChannels s n) k = getClu s k := by
  obtain ⟨regs, chans, h⟩ := stopCoreChannels_frame s n
  rw [h]; rfl

@[simp] theorem stopCoreChannels_mem : (stopCoreChannels s n).mem = s.mem := by
  obtain ⟨regs, chans, h⟩ := stopCoreChannels_frame s n
  rw [h]

@[simp] theorem stopCoreChannels_out : (stopCoreChannels s n).out = s.out := by
  obtain ⟨regs, chans, h⟩ := stopCoreChannels_frame s n
  rw [h]

@[simp] theorem stopCoreChannels_rime : (stopCoreChannels s n).rime = s.rime := by
  obtain ⟨regs, chans, h⟩ := stopCoreChannels_frame s n
  rw [h]

@[simp] theorem getCore_setClu (k : Nat) (x : ClusterSt) : getCore (setClu s k x) n = getCore s n := rfl
@[simp] theorem getClu_updCore (k : Nat) (f : CoreSt → CoreSt) : getClu (updCore s n f) k = getClu s k := rfl
@[simp] theorem getClu_wrb (a i k : Nat) (b : Bool) : getClu (wrb s a i b) k = getClu s k := rfl
@[simp] theorem getCore_hwSetBit (st ev i : Nat) : getCore (hwSetBit s st ev i) n = getCore s n := rfl
@[simp] theorem getClu_hwSetBit (st ev i k : Nat) : getClu (hwSetBit s st ev i) k = getClu s k := rfl

/-- The bits of a status register after hardware has set one of its flags. -/
theorem rdb_hwSetBit {st ev i j : Nat} (hne : st ≠ ev) (hi : i < 64) :
    rdb (hwSetBit s st ev i) st j = (rdb s st j || decide (j = i)) := by
  rw [rdb, hwSetBit, rd_hwSet, if_neg hne, if_pos rfl, ← bit_oneBit i j hi]
  exact BitVec.getLsbD_or

theorem running_coreStop : running (coreStop s n) n = false := rdb_wrb_same _ _ _ _ (by omega)

theorem getCore_coreStop : getCore (coreStop s n) n = { getCore s n with
    qm := [], qv := [], qw := [], qa := [], qc := [], hold := .none, wn := none, loops := [] } := by
  simp [coreStop, withdraw]

/-- The core's cluster keeps the arrivals and the submissions of the other cores. -/
theorem getClu_coreStop : getClu (coreStop s n) (n / 8) = { getClu s (n / 8) with
    barriers := (getClu s (n / 8)).barriers.map (fun e => (e.1, e.2.filter (fun a => a.core != n)))
    subs := (getClu s (n / 8)).subs.filter (fun x => x.core != n) } := by
  simp [coreStop, withdraw, clusterOf]

@[simp] theorem coreStop_mem : (coreStop s n).mem = s.mem := by simp [coreStop, withdraw]
@[simp] theorem coreStop_out : (coreStop s n).out = s.out := by simp [coreStop, withdraw]
@[simp] theorem coreStop_rime : (coreStop s n).rime = s.rime := by simp [coreStop, withdraw]

/-- Stopping a core's kernel does not change whose kernel it was. -/
theorem jobOn_coreStop : jobOn (coreStop s n) n = jobOn s n := by
  simp [jobOn, getCore_coreStop]

/-- A stop with a flag beside RUNNING ends the kernel. -/
theorem kernelEnded_hwSetBit_coreStop {i : Nat} (h0 : i ≠ 0) (hi : i < 64) :
    KernelEnded s (hwSetBit (coreStop s n) (Reg.CORE_STATUS n) (Reg.CORE_EVCNT n) i) n i := by
  simp only [KernelEnded, getCore_hwSetBit, getClu_hwSetBit, getCore_coreStop, getClu_coreStop, hwSetBit_mem,
    coreStop_mem, Tab.get_map_snd List.filter_nil, List.mem_filter, true_and, and_true]
  refine ⟨?_, ?_, fun e he => by simpa using he.2, fun b e he => by simpa using he.2⟩
  · rw [running, rdb_hwSetBit _ (by simp) hi, ← running, running_coreStop, decide_eq_false h0.symm, Bool.or_false]
  · rw [rdb_hwSetBit _ (by simp) hi, decide_eq_true rfl, Bool.or_true]

end

theorem coreAbort_completes {s : State} {n : Nat} (hrun : running s n = true) :
    Completes (.coreAbort n) s (fun t => KernelEnded s t n 5) :=
  ⟨_, congrArg Host.Outcome.next (if_pos hrun), kernelEnded_hwSetBit_coreStop s n (by decide) (by decide)⟩

/-- An expiry on a core no job runs on is the hardware's alone: firmware has nothing to end. -/
theorem coreBudgetExpiry_completes {s : State} {n : Nat} (hrun : running s n = true) (hjob : jobOn s n = none)
    (hbudget : rd s (Reg.CORE_BUDGET n) ≠ 0)
    (hreached : (rd s (Reg.CORE_BUDGET n)).toNat ≤ (rd s (Reg.CORE_CYCLES n)).toNat) :
    Completes (.coreBudgetExpiry n) s
      (fun t => KernelEnded s t n 2 ∧ t.out = .notice "die controller" "OVERRUN" n :: s.out) := by
  have hexpire : budgetExpire s n = notify (hwSetBit (coreStop s n) (Reg.CORE_STATUS n) (Reg.CORE_EVCNT n) 2)
      "die controller" "OVERRUN" n := if_pos ⟨hrun, hbudget, hreached⟩
  have hnojob : jobOn (budgetExpire s n) n = none := by
    rw [hexpire]
    exact (jobOn_coreStop s n).trans hjob
  have hfirmware : overrunJob (budgetExpire s n) n = budgetExpire s n := by simp [overrunJob, hnojob]
  have hexec : exec (.coreBudgetExpiry n) s = .next (budgetExpire s n) := by
    show execCoreBudgetExpiry n s = _
    simp only [execCoreBudgetExpiry, hfirmware, ite_self]
  rw [hexpire] at hexec
  exact ⟨_, hexec, kernelEnded_hwSetBit_coreStop s n (by decide) (by decide),
    congrArg (Out.notice "die controller" "OVERRUN" n :: ·) (coreStop_out s n)⟩

/-- Settles O8, from one lemma for each way a START, an ABORT or an expiry goes. -/
theorem kernelStartAndEnd : Obligations.KernelStartAndEnd := by
  intro s n i _
  refine ⟨fun hrun => ?_, coreStart_completes i, fun hidle => ?_, coreAbort_completes, coreBudgetExpiry_completes⟩
  · exact ⟨_, congrArg Host.Outcome.next (if_pos hrun), rfl⟩
  · exact ⟨_, congrArg Host.Outcome.next (if_neg (by simp [hidle])), rfl⟩

end Sys2Proof.Machine
end
